-- ==== Sys2Proof/Word.lean ====
section
/-! DEFINITION. The byte, the one word the J64's formats are built of (spec 10, "Formats and Layouts"). Quantities
the spec counts (sequence numbers, ticks, counters) are `Nat`; sets of members are bit vectors. -/

namespace Sys2Proof

/-- One byte of memory, of a transaction or of a capture frame. -/
abbrev Byte := BitVec 8

/-- The byte with value `n` modulo 256. -/
abbrev byte (n : Nat) : Byte := BitVec.ofNat 8 n

end Sys2Proof
end

