-- ==== Sys2Proof/Syntax.lean ====
section
/-! DEFINITION. The commands of the J64: one constructor per row of spec/opcode_table.json. A row that stands for a
command of the host (APPEND to NODE_READ) carries no operand here: its tag, parameter bytes and payload are those of
the entry that DISPATCH has put into the unit's slot, and for APPEND those of the head of the command queue (R164). -/

namespace Sys2Proof

/-- What an abrupt stop leaves of a control block copy that was being written (R36, R187). -/
inductive CopyCut where
  /-- nothing of the new copy has reached memory -/
  | untouched
  /-- part has: its CRC-16 fails -/
  | torn
  /-- all of it has -/
  | whole
  deriving DecidableEq, Repr

/-- How far the battery-domain writes in flight had got at an abrupt stop (R187). The moment of the stop decides it,
so the sender says it and every value is allowed. -/
structure Cut where
  /-- bytes written of the segment headers, record write and commit in flight, in the order they are written -/
  record : Nat
  /-- units zeroed by the clearing in progress, counted from unit 255 down -/
  zeroed : Nat
  /-- what is left of the control block copy being written -/
  copy : CopyCut
  /-- bytes written of the repairs of the recovery in progress, in the order they are made -/
  repairs : Nat
  deriving DecidableEq, Repr

/-- How PFI crosses 1.20 V (R181, R185). When it falls as FORMAT's last clearing ends, `made` steps of FORMAT's third phase,
from step 4 on, have been made by then; no step has when it is 0 (R181; log 31). -/
inductive PfiChange where
  | falls (made : Nat)
  | rises
  deriving DecidableEq, Repr

/-- The commands. -/
inductive Instr where
  /-- APPEND (11h): the APPEND at the head of the command queue is dispatched to the AU and tested (R47, R164). -/
  | append
  /-- FORMAT (20h): the JS takes a FORMAT (R42). -/
  | format
  /-- SET_POLICY (21h), R39. -/
  | setPolicy
  /-- JOURNAL_STATUS (22h), R40. -/
  | journalStatus
  /-- SEGMENT_INFO (23h), R41. -/
  | segmentInfo
  /-- OPEN (30h), R106 and R107. -/
  | openCursor
  /-- SEEK (31h) with a start other than TIME, R108. -/
  | seek
  /-- SEEK (31h) with start TIME, R109. -/
  | seekTime
  /-- FETCH (32h), R110. -/
  | fetch
  /-- COUNT (33h), R112. -/
  | count
  /-- CANCEL (34h), R116. -/
  | cancel
  /-- CLOSE (35h), R117. -/
  | close
  /-- CURSOR_STATUS (36h), R126. -/
  | cursorStatus
  /-- READ_TIME (40h), R77. -/
  | readTime
  /-- SET_TIME (41h), R71. -/
  | setTime
  /-- ADJUST_TIME (42h), R74. -/
  | adjustTime
  /-- WATCH_SET (50h), R94. -/
  | watchSet
  /-- WATCH_READ (51h), R95. -/
  | watchRead
  /-- WATCH_OFF (52h), R96. -/
  | watchOff
  /-- CAPTURE_SET (60h), R152. -/
  | captureSet
  /-- NODE_SET (61h), R153. -/
  | nodeSet
  /-- NODE_READ (62h), R154. -/
  | nodeRead
  /-- The head of the command queue goes to its unit's free slot (R164, R165). -/
  | dispatch
  /-- The fall of CS#: the status byte is taken (R158). -/
  | statusByte
  /-- The rise of CS# that ends a CMD transaction; `bytes` are the whole bytes after the port byte (R162). -/
  | cmd (bytes : List Byte)
  /-- The end of the port byte of an RSP transaction (R167). -/
  | rsp
  /-- The rise of CS# that ends an RSP transaction with `clocked` whole bytes after the port byte (R167). -/
  | rspPop (clocked : Nat)
  /-- The end of the cursor number byte of a WIN transaction, with the offset byte that follows (R170). -/
  | win (cursor : Byte) (offset : Byte)
  /-- The rise of CS# that ends a WIN transaction, or one whose port has no row for its rise (R171; log 26). -/
  | winEnd
  /-- The end of the port byte of an STS transaction (R172). -/
  | sts
  /-- The rise of CS# that ends an ACK transaction; `bytes` as for CMD (R173). -/
  | ack (bytes : List Byte)
  /-- The rise of CS# that ends a MASK transaction; `bytes` as for CMD (R174). -/
  | mask (bytes : List Byte)
  /-- The end of a port byte that names no port (R159). -/
  | unknownPort (port : Byte)
  /-- The arbiter chooses a lane and its record's append begins (R50, R53). -/
  | arbiterChoice
  /-- The JS takes the AU's request for the next segment (R54). -/
  | nextSegmentRequest
  /-- The last payload byte is written and the record goes on to its commit (R57, R58). -/
  | writeStepEnd
  /-- The JS takes the CU's report of a changed hold floor (R30). -/
  | holdFloorReport
  /-- The zeroing of a segment ends (R27). -/
  | clearingEnd
  /-- A control block copy write ends (R37). -/
  | controlBlockWriteEnd
  /-- The JS takes the AU's word that it has stopped for FORMAT; `zeroed` units of a clearing then abandoned have
  been zeroed (R43, R63). -/
  | auStopped (zeroed : Nat)
  /-- The oscillator tick that is a second boundary (R67). -/
  | secondBoundary
  /-- The oscillator tick at which the ticks reach 32,751 (R75). -/
  | decisionPoint
  /-- The WU takes a boundary event (R91). -/
  | boundaryEvent
  /-- The WU takes a commit notice (R89). -/
  | wuCommitNotice
  /-- The CU takes a commit notice (R114). -/
  | cuCommitNotice
  /-- The CU takes a reclaim notice (R121 to R123). -/
  | reclaimNotice
  /-- The follow timeout of a parked fetch ends (R115). -/
  | followTimeout (cursor : Fin 4)
  /-- A scan reads its next index entry or record place (R102, R104). -/
  | scanStep
  /-- A forward scan takes the tail test (R103). -/
  | tailTest
  /-- The capture receiver takes a character; `good` says its stop bit was sampled high (R129, R135). -/
  | characterReceived (char : Byte) (good : Bool)
  /-- A gap inside a burst exceeds the gap timeout (R138). -/
  | gapTimeout
  /-- The line has been idle for the gap timeout (R135). -/
  | idleTimeElapsed
  /-- The acknowledge window of a slot ends (R146). -/
  | acknowledgeWindowEnd (slot : Fin 2)
  /-- An acknowledge frame begins (R147). -/
  | ackFrameStart
  /-- The last stop bit of an acknowledge frame is sent (R148). -/
  | ackFrameEnd
  /-- The CP takes a commit notice (R145). -/
  | cpCommitNotice
  /-- The CP takes the AU's refusal notice (R149). -/
  | refusalNotice
  /-- PFI crosses 1.20 V (R181, R185). -/
  | holdup (change : PfiChange)
  /-- The PC takes the AU's word that it has ended; `zeroed` units of a clearing then abandoned have been zeroed
  (R183, R184). -/
  | auEnded (zeroed : Nat)
  /-- RESET# is asserted (R186). -/
  | resetAssert (cut : Cut)
  /-- RESET# is released (R178). -/
  | resetRelease
  /-- VMAIN becomes absent (R186). -/
  | vmainLost (cut : Cut)
  /-- VMAIN becomes present (R177, R178). -/
  | vmainRise
  /-- VBAT falls below 1.8 V (R179). -/
  | vbatFall
  /-- VBAT rises (R178). -/
  | vbatRise
  /-- START ends: the PC examines the retention-lost latch (R180). -/
  | retentionLatchExamine
  /-- The recovery scan ends, and recovery settles the journal (R190 to R194). -/
  | recoveryScanEnd
  deriving DecidableEq, Repr

end Sys2Proof
end

