-- ==== Sys2Proof/Decode.lean ====
section
/-! DEFINITION. The command a word spells by the bits of spec/opcode_table.json. Every row of the table has
"fields": [] and no fixed bits (spec 98, "n_rows_with_fixed": 0), so no word spells any of them. The opcodes of the
host's command entries (R164) are read by DISPATCH, in Machine/Operands.lean. -/

namespace Sys2Proof

/-- The command that the `nbits` bits of `w` spell: none, since no row of the table has bits. -/
def decodeTableWord (_nbits _w : Nat) : Option Instr := none

end Sys2Proof
end

