-- ==== Sys2Proof/Machine/Types.lean ====
section
/-! DEFINITION. The data the state of the J64 is made of, block by block, in the spec's own names. Nothing here
computes. -/

namespace Sys2Proof.Machine

/-- A segment number, 0-63 (R18); `g + 1` is the segment after `g`, modulo 64. -/
abbrev Seg := Fin 64

/-- The record memory: (address, byte) pairs, addresses strictly rising; an unlisted byte reads 00h (log 4). -/
abbrev Memory := List Host.Cell

/-- A stamp, or a time: seconds and ticks (R16). -/
structure Stamp where
  seconds : Nat
  ticks : Nat
  deriving DecidableEq, Repr, Inhabited

/-- The sources of a record (R2). -/
inductive Source where
  | host | capture | system
  deriving DecidableEq, Repr, Inhabited

/-- The stored states of a record (R2); `other` is a byte that is none of the four (R190). -/
inductive RecState where
  | free | opened | committed | void | other
  deriving DecidableEq, Repr

/-- The six kinds of system record (R10). -/
inductive SysKind where
  | coldStart | recovered | powerDown | timeSet | formatted | silent
  deriving DecidableEq, Repr, Inhabited

/-- A system record request: its kind and its whole payload, fixed at the request (R46). -/
structure SysRequest where
  kind : SysKind
  payload : List Byte
  deriving DecidableEq, Repr, Inhabited

/-- A record before it is placed: the fields of R2 that its lane decides (R53). -/
structure Record where
  source : Source
  cls : Nat
  payload : List Byte
  node : Nat
  nodeSeq : Nat
  age : Nat
  stamp : Stamp
  unset : Bool
  deriving DecidableEq, Repr, Inhabited

/-- A match descriptor (R80). -/
structure Descriptor where
  sources : BitVec 3
  classes : BitVec 16
  nodes : BitVec 8
  key : BitVec 16
  care : BitVec 16
  timeFrom : Option Stamp
  timeTo : Option Stamp
  deriving DecidableEq, Repr, Inhabited

/-- An accepted command entry (R161): opcode, tag, parameter bytes 0-5 and payload. -/
structure Entry where
  opcode : Byte
  tag : Byte
  params : List Byte
  payload : List Byte
  deriving DecidableEq, Repr, Inhabited

/-- The result codes (R168). -/
inductive Result where
  | done | committed | found | endReached | limit | timeout | cancelled | closed | journalFull | held
  | seqExhausted | badClass | badParam | cursorBusy | cursorClosed | unknownCommand | notReady
  deriving DecidableEq, Repr, Inhabited

/-- A response entry: tag, result, the flags LOST and LIMITED, and the field bytes from byte 3 on (R168). -/
structure Response where
  tag : Byte
  result : Result
  lost : Bool
  limited : Bool
  fields : List Byte
  deriving DecidableEq, Repr, Inhabited

/-- A commit notice (R59). -/
structure Notice where
  seq : Nat
  cls : Nat
  source : Source
  node : Nat
  nodeSeq : Nat
  stamp : Stamp
  unset : Bool
  key : BitVec 16
  len : Nat
  seg : Seg
  unit : Nat
  deriving DecidableEq, Repr, Inhabited

/-! ## Journal Store -/

/-- The five segment states (R21). -/
inductive SegState where
  | free | clearing | prepared | filling | sealed
  deriving DecidableEq, Repr, Inhabited

/-- One entry of the segment index (R32). -/
structure IndexEntry where
  state : SegState
  first : Option Nat
  last : Option Nat
  count : Nat
  minStamp : Option Stamp
  maxStamp : Option Stamp
  classes : BitVec 16
  sources : BitVec 3
  nodes : BitVec 8
  unset : Bool
  deriving DecidableEq, Repr, Inhabited

/-- The fill policy (R26). -/
inductive Policy where
  | wrap | stop
  deriving DecidableEq, Repr, Inhabited

/-- The blocked reason (R26). -/
inductive Blocked where
  | clear | held | full
  deriving DecidableEq, Repr, Inhabited

/-- The journal states of the snapshot (R172). -/
inductive JournalState where
  | notReady | ready | formatting
  deriving DecidableEq, Repr, Inhabited

/-- The two control block copies. -/
inductive CopyId where
  | a | b
  deriving DecidableEq, Repr, Inhabited

/-- The part of a node's configuration that the control block keeps (R35). -/
structure NodeConfig where
  enabled : Bool
  classes : BitVec 16
  deriving DecidableEq, Repr, Inhabited

/-- One control block copy (R35). Its byte layout is not given; `checkOk` says whether its CRC-16 is correct. -/
structure ControlCopy where
  generation : Nat
  head : Seg
  filling : Seg
  policy : Policy
  mark : Nat
  hint : Nat
  captureOn : Bool
  rate : Nat
  gap : Nat
  window : Nat
  nodes : Vector NodeConfig 8
  checkOk : Bool
  deriving DecidableEq, Repr, Inhabited

/-- A control block write in progress: the copy written and the values taken at its beginning (R36). -/
structure CopyWrite where
  target : CopyId
  values : ControlCopy
  deriving DecidableEq, Repr

/-- Which write carries a change that waits to be durable (R37): the one in progress, or the pending one. -/
inductive CopyWait where
  | thisWrite | nextWrite
  deriving DecidableEq, Repr

/-- How far the command in the JS slot has come. FORMAT waits for the AU (first phase), clears (second phase, with
the records-discarded value), and waits for FORMATTED's append and for its control block write (third phase). -/
inductive JsPhase where
  | dispatched
  | policyWait (w : CopyWait)
  | formatStopping
  | formatClearing (discarded : Nat)
  | formatEnding (appended : Bool) (write : Option CopyWait)
  deriving DecidableEq, Repr

/-- The JS's command slot when it is not free (2.8). -/
structure JsSlot where
  entry : Entry
  phase : JsPhase
  deriving DecidableEq, Repr

/-- The Journal Store. -/
structure Js where
  journal : JournalState
  head : Seg
  filling : Seg
  used : Nat
  index : Vector IndexEntry 64
  policy : Policy
  mark : Nat
  reclaimed : Nat
  blocked : Blocked
  holdFloor : Option Nat
  /-- hold floor reports the CU has sent and the JS has not yet taken, oldest first (R30) -/
  floorReports : List (Option Nat)
  slot : Option JsSlot
  /-- the segment being zeroed (R27) -/
  clearing : Option Seg
  copyWrite : Option CopyWrite
  copyPending : Bool
  lastCopy : CopyId
  lastGeneration : Nat
  /-- the AU has told the JS that it has stopped for FORMAT (R63), and AU_STOPPED has not yet been taken -/
  auStopped : Bool
  deriving DecidableEq, Repr

/-! ## Append Unit -/

/-- The next sequence number (R45): not set before recovery or cold initialisation has set it (R172). -/
inductive NextSeq where
  | unset
  | exhausted
  | value (n : Nat)
  deriving DecidableEq, Repr

/-- What a host lane place holds: an APPEND that waits, or the one whose record is in progress (R47, R48). -/
inductive PlaceState where
  | waiting | inProgress
  deriving DecidableEq, Repr

/-- A host lane place that is not free. -/
structure HostPlace where
  entry : Entry
  state : PlaceState
  deriving DecidableEq, Repr

/-- The two lanes that take turns (R50). -/
inductive Turn where
  | host | capture
  deriving DecidableEq, Repr

/-- Where the record in progress came from: a system request, a host command, or a record of a burst slot. -/
inductive Origin where
  | system (kind : SysKind)
  | host (tag : Byte)
  | capture (slot : Fin 2) (place : Nat)
  deriving DecidableEq, Repr

/-- How far the append has come (3.4): its request for the next segment is with the JS; it waits for a clearing; it is
refused (a capture record until the CP has taken the notice); or its write step runs. -/
inductive AppendPhase where
  | requesting
  | waitingClear
  | refused (code : Result)
  | writing
  deriving DecidableEq, Repr

/-- The record in progress (R53). From the write step on: its number, its place, the bytes in flight in the order they
are written (segment headers, record, commit) and what those bytes held before (R187). -/
structure InProgress where
  data : Record
  origin : Origin
  phase : AppendPhase
  seq : Nat
  seg : Seg
  unit : Nat
  writes : List Host.Cell
  undo : List Host.Cell
  deriving DecidableEq, Repr

/-- The hold-up sequence at the AU (R64): no stop asked, stop asked, POWER_DOWN in progress, ended. -/
inductive AuHoldup where
  | idle | asked | powerDown | ended
  deriving DecidableEq, Repr

/-- The Append Unit (R45). -/
structure Au where
  nextSeq : NextSeq
  fillPoint : Nat
  systemLane : List SysRequest
  /-- the host lane places that are not free, in dispatch order -/
  hostLane : List HostPlace
  lastServed : Turn
  record : Option InProgress
  /-- the arbiter is paused (R52) -/
  paused : Bool
  systemLost : Nat
  /-- FORMAT has asked the AU to stop and the arbiter is not paused yet (R63) -/
  formatAsked : Bool
  holdup : AuHoldup
  deriving DecidableEq, Repr

/-! ## Time Base -/

/-- The slew decided for the current second (R75). -/
inductive Slew where
  | straight
  | shorten (m : Nat)
  | lengthen (m : Nat)
  deriving DecidableEq, Repr

/-- The TB's command slot; `old` is the old reading kept by a waiting SET_TIME, none while the command has only been
dispatched (R71). -/
structure TbSlot where
  entry : Entry
  old : Option Stamp
  deriving DecidableEq, Repr

/-- The Time Base (R66). -/
structure Tb where
  seconds : Nat
  ticks : Nat
  isSet : Bool
  staged : Option Nat
  adjustment : Int
  slew : Slew
  /-- oscillator ticks a lengthened second has been held at 32,767 beyond its first (R76) -/
  heldTicks : Nat
  slot : Option TbSlot
  /-- oscillator ticks since the last beat event (R69) -/
  beatPhase : Nat
  deriving DecidableEq, Repr

/-! ## Cursor Unit -/

/-- The four cursor states (R99). -/
inductive CursorState where
  | closed | ready | scanning | parked
  deriving DecidableEq, Repr, Inhabited

/-- A cursor (R98). A window byte beyond the list reads 00h. -/
structure Cursor where
  state : CursorState
  backward : Bool
  follow : Bool
  hold : Bool
  desc : Descriptor
  position : Nat
  timeout : Nat
  budget : Nat
  delivered : Nat
  lost : Nat
  pendingLoss : Nat
  window : List Byte
  /-- the last window change held for the open WIN transaction (R125) -/
  heldWindow : Option (List Byte)
  /-- the tag of the parked FETCH (R113) -/
  fetchTag : Option Byte
  /-- the parked FETCH has reported a loss (R124) -/
  fetchLost : Bool
  /-- beats left of the follow timeout; 0: the nth beat has come and the timeout is due (R115) -/
  beatsLeft : Option Nat
  deriving DecidableEq, Repr, Inhabited

/-- What a scan is part of (6.3). -/
inductive ScanKind where
  | fetch
  | count
  | seekTime (t : Stamp)
  deriving DecidableEq, Repr

/-- A scan in flight. `unit` is none while the index entry of `seg` is to be read. A forward scan reads the place at
`unit` next; a backward scan reads the last record of `seg` that begins below `unit`. -/
structure Scan where
  cursor : Fin 4
  kind : ScanKind
  /-- the number the scan would examine next -/
  pos : Nat
  seg : Seg
  unit : Option Nat
  examined : Nat
  found : Nat
  /-- numbers skipped that have been reported (R124) -/
  skipped : Nat
  /-- numbers skipped that are reported when the scan ends (R123) -/
  owed : Nat
  /-- `seg` has been reclaimed since the scan came to it, and so has left journal order (R122; log 41) -/
  left : Bool
  deriving DecidableEq, Repr

/-- The CU's command slot; `scan` is none while the command has only been dispatched. -/
structure CuSlot where
  entry : Entry
  scan : Option Scan
  deriving DecidableEq, Repr

/-- A reclaim notice (R28, R121): the segment, the head sequence before and after, and the cursors whose scan has
already found by reading that the segment is gone (R122), which stay marked by their number until the notice is taken (log
34). -/
structure ReclaimNotice where
  seg : Seg
  oldHead : Nat
  newHead : Nat
  seenBy : List (Fin 4)
  deriving DecidableEq, Repr

/-- The Cursor Unit. -/
structure Cu where
  cursors : Vector Cursor 4
  slot : Option CuSlot
  notices : List Notice
  reclaims : List ReclaimNotice
  /-- FORMAT has closed the cursors and the journal is not READY again (R127) -/
  noOpen : Bool
  /-- stopped by the hold-up sequence (R128) -/
  stopped : Bool
  deriving DecidableEq, Repr

/-! ## Watch Unit -/

/-- A watch (R87). `spared` and `met` are the model's own: they say which commit notices and boundary events have met at the
WU, as R93 speaks of them (log 46). -/
structure Watch where
  armed : Bool
  desc : Descriptor
  countOn : Bool
  interruptOn : Bool
  latchOn : Bool
  hits : Nat
  first : Option Nat
  last : Option Nat
  period : Nat
  remaining : Nat
  silent : Bool
  /-- the last hit met a boundary event that still waits (R93) -/
  spared : Bool
  /-- for each boundary event that has shortened the silence remaining, without ending it, while commit notices waited: how
  many of those that met it still wait (R93) -/
  met : List Nat
  deriving DecidableEq, Repr, Inhabited

/-- The Watch Unit; the slot holds a command that has been dispatched, since each is answered at its take (5.7). -/
structure Wu where
  watches : Vector Watch 8
  slot : Option Entry
  notices : List Notice
  /-- boundary events sent and not yet taken (R68) -/
  boundaries : Nat
  deriving DecidableEq, Repr

/-! ## Capture Port -/

/-- The receiver states (R131). -/
inductive Receiver where
  | disabled | waitIdle | idle | header | records | trailer | discard | acking
  deriving DecidableEq, Repr, Inhabited

/-- The resolutions of a burst record (R144); `received` is before verification. -/
inductive Resolution where
  | received | badCheck | refused | duplicate | queued | inAppend | committed | auRefused | dropped
  deriving DecidableEq, Repr, Inhabited

/-- A record of a burst slot: its bytes as sent, and what verification gave it (R143, R144). -/
structure BurstRecord where
  cls : Nat
  nodeSeq : Nat
  age : Nat
  payload : List Byte
  crc : Nat
  stamp : Stamp
  unset : Bool
  res : Resolution
  deriving DecidableEq, Repr, Inhabited

/-- The states of a slot's acknowledge (R144). -/
inductive AckState where
  | notDue | due | sent | dropped
  deriving DecidableEq, Repr, Inhabited

/-- A burst slot that is not free (R144). -/
structure Burst where
  node : Fin 8
  num : Byte
  count : Nat
  records : List BurstRecord
  verified : Bool
  arrival : Stamp
  windowLen : Nat
  /-- beats left of the acknowledge window; 0: it has ended and its end is due -/
  beatsLeft : Option Nat
  ack : AckState
  deriving DecidableEq, Repr

/-- An acknowledge in the pending queue: a slot's, or that of a probe or a DISCARD burst, whose result codes are fixed
at its end marker (R139, R140). -/
inductive Ack where
  | slot (i : Fin 2)
  | direct (node : Fin 8) (num : Byte) (codes : List Byte)
  deriving DecidableEq, Repr

/-- The acknowledge frame being sent (R147). -/
structure Frame where
  bytes : List Byte
  slot : Option (Fin 2)
  deriving DecidableEq, Repr

/-- The burst in reception (7.4): its header bytes so far, then node, burst number and record count, the slot claimed,
the records complete and the bytes of the record being received. -/
structure Reception where
  header : List Byte
  node : Fin 8
  num : Byte
  count : Nat
  slot : Option (Fin 2)
  complete : Nat
  current : List Byte
  deriving DecidableEq, Repr, Inhabited

/-- A node table entry (R132) with its seven counters (R150). -/
structure Node where
  enabled : Bool
  classes : BitVec 16
  lastSeq : Option Nat
  committedSeq : Option Nat
  pending : Nat
  bursts : Nat
  stored : Nat
  duplicates : Nat
  badChecks : Nat
  refused : Nat
  noRoom : Nat
  lost : Nat
  deriving DecidableEq, Repr, Inhabited

/-- How far the command in the CP slot has come: dispatched; a CAPTURE_SET taken while a frame is being sent, to be
applied at the frame's end; waiting for its control block write (R152). -/
inductive CpPhase where
  | dispatched
  | frameWait
  | writeWait (w : CopyWait)
  deriving DecidableEq, Repr

/-- The CP's command slot. -/
structure CpSlot where
  entry : Entry
  phase : CpPhase
  deriving DecidableEq, Repr

/-- A commit notice on its way to the CP (R59, R145): the fields every notice carries, and the burst slot and place of
the record. `oldJournal` says that FORMAT has made a new journal since the commit (R155; log 18). -/
structure CpNotice where
  notice : Notice
  slot : Fin 2
  place : Nat
  oldJournal : Bool
  deriving DecidableEq, Repr

/-- A refusal notice of the AU (R61). -/
structure RefusalNotice where
  slot : Fin 2
  place : Nat
  code : Result
  deriving DecidableEq, Repr

/-- The Capture Port (R131). -/
structure Cp where
  receiver : Receiver
  /-- the state ACKING returns to (R130) -/
  resume : Receiver
  enabled : Bool
  rate : Nat
  gap : Nat
  window : Nat
  reception : Option Reception
  slots : Vector (Option Burst) 2
  /-- the verified bursts held, by slot, the earliest verified first (R49) -/
  order : List (Fin 2)
  queue : List Ack
  frame : Option Frame
  nodes : Vector Node 8
  framing : Nat
  badHeaders : Nat
  noSlot : Nat
  acksSent : Nat
  acksDropped : Nat
  slot : Option CpSlot
  /-- commit notices on their way, oldest first (R59) -/
  notices : List CpNotice
  refusal : Option RefusalNotice
  /-- stopped by the hold-up sequence (R156) -/
  stopped : Bool
  deriving DecidableEq, Repr

/-! ## Host Port -/

/-- The reasons of a rejection (R162). -/
inductive Reject where
  | noReject | length | notReady | full | tag
  deriving DecidableEq, Repr, Inhabited

/-- The six ports (R159). -/
inductive Port where
  | cmd | rsp | win | sts | ack | mask
  deriving DecidableEq, Repr

/-- The port an open transaction has chosen at its port byte, with what it has taken so far (R160, R167, R170, R172). -/
inductive TxPort where
  /-- only the fall of CS# has come -/
  | statusOnly
  /-- a port byte that names no port has come (R159) -/
  | unknown
  /-- CMD, ACK or MASK: the port and the whole bytes taken after the port byte (R157, R160; log 11) -/
  | taking (port : Port) (bytes : List Byte)
  /-- RSP: the front entry chosen, none for the empty entry -/
  | rsp (chosen : Option Response)
  /-- WIN: the cursor held open (none: every byte returns 00h) and the offset -/
  | win (cursor : Option (Fin 4)) (offset : Nat)
  /-- STS: the snapshot taken -/
  | sts (snapshot : List Byte)
  deriving DecidableEq, Repr

/-- The open transaction: the status byte taken at the fall of CS# and its port. -/
structure Tx where
  status : Byte
  port : TxPort
  deriving DecidableEq, Repr

/-- The Host Port (R160). -/
structure Hp where
  offline : Bool
  commands : List Entry
  responses : List Response
  outstanding : Nat
  tags : List Byte
  /-- the seven event flags by member number; member 0 (RSP) is the state of the response queue and stays clear here -/
  events : BitVec 8
  mask : BitVec 8
  reject : Reject
  lastAccepted : Bool
  unknownPorts : Nat
  tx : Option Tx
  deriving DecidableEq, Repr

/-! ## Power Controller -/

/-- The eight supply states (R178). -/
inductive Supply where
  | off | retain | reset | start | coldInit | recover | run | holdup
  deriving DecidableEq, Repr

/-- The cold reasons (R179). -/
inductive ColdReason where
  | backupLost | controlLost
  deriving DecidableEq, Repr

/-- Where the hold-up sequence stands at the PC (R183, R184): no sequence, waiting for the AU, told by the AU that it
has ended, waiting for the final control block write. -/
inductive HoldupStep where
  | idle
  | closingAu
  | auEnded
  | writing (w : CopyWait)
  deriving DecidableEq, Repr

/-- The Power Controller. -/
structure Pc where
  supply : Supply
  latch : Bool
  reason : ColdReason
  /-- VMAIN is present (R178) -/
  vmain : Bool
  /-- VBAT is at or above 1.8 V -/
  vbat : Bool
  /-- RESET# is asserted -/
  resetLow : Bool
  /-- PFI is below 1.20 V -/
  pfiLow : Bool
  /-- CS# is low (R157, R202) -/
  csLow : Bool
  step : HoldupStep
  /-- slot records the CP discarded at the second step of hold-up (R182) -/
  discarded : Nat
  /-- the copy recovery chose (R188) -/
  chosen : CopyId
  /-- the recovery scan is in progress (R189, R190) -/
  scanning : Bool
  deriving DecidableEq, Repr

end Sys2Proof.Machine
end

