-- ==== Sys2Proof/Config.lean ====
section
/-! DEFINITION. The free values: what the spec calls meaningless, or does not say, and the machine goes on with. In OFF
"the battery domain holds no meaningful values" (R178) and what the Time Base held "has no meaning" (R67): the nth passage
through OFF takes the nth value (log 8). Each constant has no body, so nothing can be proved of its value. -/

namespace Sys2Proof.Config

/-- The seconds, the ticks and the UNSET/SET state found after OFF. -/
opaque offTime : Nat → BitVec 32 × BitVec 15 × Bool

/-- The oscillator ticks since the last beat event, found after OFF. -/
opaque offPhase : Nat → Fin 32

/-- The record memory found after OFF, as a list of bytes that are not 00h. -/
opaque offMemory : Nat → List Host.Cell

/-- The control block copies A and B found after OFF. -/
opaque offCopies : Nat → Machine.ControlCopy × Machine.ControlCopy

/-- What MISO returns in the kth byte while CS# is low and no transaction is open (log 43). -/
opaque idleMiso : Nat → Byte

end Sys2Proof.Config
end

