-- ==== Sys2Proof/Machine/Start.lean ====
section
/-! DEFINITION. The values each block comes up with in START: those "that each block's chapter gives for the end of a
recovery, with the HP OFFLINE and the CP's receiver DISABLED" (R180). Where those depend on what recovery has not yet
read, the value is the model's (log 6); recovery and cold initialisation replace it before it is used. -/

namespace Sys2Proof.Machine

/-- An index entry that holds nothing, in state `st` (R32). -/
def IndexEntry.empty (st : SegState) : IndexEntry :=
  { state := st, first := none, last := none, count := 0, minStamp := none, maxStamp := none,
    classes := 0, sources := 0, nodes := 0, unset := false }

/-- The descriptor of a watch or cursor after a restart: empty sets, mask 0000h, no time bounds (R87). -/
def Descriptor.empty : Descriptor :=
  { sources := 0, classes := 0, nodes := 0, key := 0, care := 0, timeFrom := none, timeTo := none }

/-- The JS in START (R22, R180). -/
def Js.start : Js :=
  { journal := .notReady, head := 0, filling := 0, used := 0, index := Vector.replicate 64 (IndexEntry.empty .free),
    policy := .wrap, mark := 56, reclaimed := 0, blocked := .clear, holdFloor := none, floorReports := [],
    slot := none, clearing := none, copyWrite := none, copyPending := false, lastCopy := .b, lastGeneration := 1,
    auStopped := false }

/-- The AU in START (R45, R180), with the fill point at unit 1 (log 6). -/
def Au.start : Au :=
  { nextSeq := .unset, fillPoint := 1, systemLane := [], hostLane := [], lastServed := .capture, record := none,
    paused := false, systemLost := 0, formatAsked := false, holdup := .idle }

/-- A cursor after a restart (R98). -/
def Cursor.start : Cursor :=
  { state := .closed, backward := false, follow := false, hold := false, desc := Descriptor.empty, position := 0,
    timeout := 0, budget := 1, delivered := 0, lost := 0, pendingLoss := 0, window := [], heldWindow := none,
    fetchTag := none, fetchLost := false, beatsLeft := none }

/-- The CU in START (R98, R128). -/
def Cu.start : Cu :=
  { cursors := Vector.replicate 4 Cursor.start, slot := none, notices := [], reclaims := [], noOpen := false,
    stopped := false }

/-- A watch after a restart (R87). -/
def Watch.start : Watch :=
  { armed := false, desc := Descriptor.empty, countOn := false, interruptOn := false, latchOn := false, hits := 0,
    first := none, last := none, period := 0, remaining := 0, silent := false, spared := false, met := [] }

/-- The WU in START (R87). -/
def Wu.start : Wu :=
  { watches := Vector.replicate 8 Watch.start, slot := none, notices := [], boundaries := 0 }

/-- A node entry after cold initialisation (R132). -/
def Node.start : Node :=
  { enabled := false, classes := 0, lastSeq := none, committedSeq := none, pending := 0, bursts := 0, stored := 0,
    duplicates := 0, badChecks := 0, refused := 0, noRoom := 0, lost := 0 }

/-- The CP in START: receiver DISABLED, settings of cold initialisation (R131, R180). -/
def Cp.start : Cp :=
  { receiver := .disabled, resume := .idle, enabled := false, rate := 0, gap := 4, window := 5, reception := none,
    slots := Vector.replicate 2 none, order := [], queue := [], frame := none, nodes := Vector.replicate 8 Node.start,
    framing := 0, badHeaders := 0, noSlot := 0, acksSent := 0, acksDropped := 0, slot := none, notices := [],
    refusal := none, stopped := false }

/-- The HP in START: the values of R160 with OFFLINE set. -/
def Hp.start : Hp :=
  { offline := true, commands := [], responses := [], outstanding := 0, tags := [], events := 0, mask := 0,
    reject := .noReject, lastAccepted := false, unknownPorts := 0, tx := none }

/-- A TB with the given counting part (battery domain) and nothing in its main domain (R66, R79). -/
def Tb.atStart (seconds ticks : Nat) (isSet : Bool) (beatPhase : Nat) : Tb :=
  { seconds := seconds, ticks := ticks, isSet := isSet, staged := none, adjustment := 0, slew := .straight,
    heldTicks := 0, slot := none, beatPhase := beatPhase }

/-- The PC on a new part whose VMAIN has just risen: in START, the latch found set with BACKUP_LOST (R178, R179;
log 3). -/
def Pc.start : Pc :=
  { supply := .start, latch := true, reason := .backupLost, vmain := true, vbat := true, resetLow := false,
    pfiLow := false, csLow := false, step := .idle, discarded := 0, chosen := .a, scanning := false }

/-- A control copy whose check is wrong: what a new part holds (log 5). -/
def ControlCopy.bad : ControlCopy :=
  { generation := 0, head := 0, filling := 0, policy := .wrap, mark := 56, hint := 1, captureOn := false, rate := 0,
    gap := 4, window := 5, nodes := Vector.replicate 8 { enabled := false, classes := 0 }, checkOk := false }

end Sys2Proof.Machine
end

