-- ==== Sys2Proof/Machine/State.lean ====
section
/-! DEFINITION. The state of the J64: its eight blocks, its battery-domain memory and the queue of waiting commands. -/

namespace Sys2Proof.Machine

/-- Why a run would stop. The spec names no behaviour of the J64 that stops it. -/
inductive Fault where
  /-- An access to a byte outside the 131,072 bytes of the record memory (R18). Raised by no command of this model;
  a stop would be safe. -/
  | outsideRecordMemory
  deriving DecidableEq, Repr

/-- Why a command would have no meaning. -/
inductive Refusal where
  /-- The command has no meaning in the model yet. Raised by no arm of exec; a stop would be safe. -/
  | notModelled (mnemonic : String)
  deriving DecidableEq, Repr

/-- The whole machine. -/
structure State where
  /-- the commands that wait, first in, first out -/
  pending : List Instr
  pc : Pc
  js : Js
  au : Au
  tb : Tb
  cu : Cu
  wu : Wu
  cp : Cp
  hp : Hp
  /-- the record memory, battery domain (R18) -/
  mem : Memory
  /-- control block copy A, battery domain (R35) -/
  copyA : ControlCopy
  /-- control block copy B, battery domain (R35) -/
  copyB : ControlCopy
  /-- the model's own counter of free values (Config) -/
  freeCount : Nat
  deriving DecidableEq, Repr

/-- The machine right after reset: START on a new part (R178 to R180; logs 3 to 7). -/
def State.reset : State :=
  { pending := [], pc := Pc.start, js := Js.start, au := Au.start, tb := Tb.atStart 0 0 false 0, cu := Cu.start,
    wu := Wu.start, cp := Cp.start, hp := Hp.start, mem := [], copyA := ControlCopy.bad, copyB := ControlCopy.bad,
    freeCount := 0 }

/-! One update per block, so that every operation says which blocks it writes. -/

/-- Update the Power Controller. -/
def State.onPc (s : State) (f : Pc → Pc) : State := { s with pc := f s.pc }
/-- Update the Journal Store. -/
def State.onJs (s : State) (f : Js → Js) : State := { s with js := f s.js }
/-- Update the Append Unit. -/
def State.onAu (s : State) (f : Au → Au) : State := { s with au := f s.au }
/-- Update the Time Base. -/
def State.onTb (s : State) (f : Tb → Tb) : State := { s with tb := f s.tb }
/-- Update the Cursor Unit. -/
def State.onCu (s : State) (f : Cu → Cu) : State := { s with cu := f s.cu }
/-- Update the Watch Unit. -/
def State.onWu (s : State) (f : Wu → Wu) : State := { s with wu := f s.wu }
/-- Update the Capture Port. -/
def State.onCp (s : State) (f : Cp → Cp) : State := { s with cp := f s.cp }
/-- Update the Host Port. -/
def State.onHp (s : State) (f : Hp → Hp) : State := { s with hp := f s.hp }
/-- Update the record memory. -/
def State.onMem (s : State) (f : Memory → Memory) : State := { s with mem := f s.mem }

end Sys2Proof.Machine
end

