-- ==== Sys2Proof/Machine/Operands.lean ====
section
/-! DEFINITION. The formats of chapter 10: bytes and checks, the record and segment headers, command entries,
descriptors, result codes and response entries. -/

namespace Sys2Proof.Machine

/-! ## Bytes, counters, checks -/

/-- A two-byte field, most significant byte first (10). -/
def be16 (n : Nat) : List Byte := [byte (n / 256), byte n]

/-- A four-byte field, most significant byte first (10). -/
def be32 (n : Nat) : List Byte := [byte (n / 16777216), byte (n / 65536), byte (n / 256), byte n]

/-- The byte at position `i` as a number; a position past the end reads 0. -/
def rd8 (l : List Byte) (i : Nat) : Nat := (l.getD i 0).toNat

/-- The two-byte field at position `i`. -/
def rd16 (l : List Byte) (i : Nat) : Nat := rd8 l i * 256 + rd8 l (i + 1)

/-- The four-byte field at position `i`. -/
def rd32 (l : List Byte) (i : Nat) : Nat := rd16 l i * 65536 + rd16 l (i + 2)

/-- A counter of 16 bits that stays at its top value (R150). -/
def sat16 (n : Nat) : Nat := min n 65535

/-- A counter of 32 bits that stays at its top value (R98). -/
def sat32 (n : Nat) : Nat := min n 4294967295

/-- The bits of a byte, most significant first (R200). -/
def byteBits (b : Byte) : List Bool :=
  [b.getLsbD 7, b.getLsbD 6, b.getLsbD 5, b.getLsbD 4, b.getLsbD 3, b.getLsbD 2, b.getLsbD 1, b.getLsbD 0]

/-- One bit of a CRC of width `w` with polynomial `poly` (R200): shift left, and exclusive-or when the bit shifted out
differs from the data bit. -/
def crcBit (w : Nat) (poly : BitVec w) (r : BitVec w) (d : Bool) : BitVec w :=
  if r.msb != d then (r <<< 1) ^^^ poly else r <<< 1

/-- CRC-8: polynomial 07h, initial value 00h (R200). -/
def crc8 (l : List Byte) : BitVec 8 := (l.flatMap byteBits).foldl (crcBit 8 0x07) 0

/-- CRC-16: polynomial 1021h, initial value FFFFh (R200). -/
def crc16 (l : List Byte) : BitVec 16 := (l.flatMap byteBits).foldl (crcBit 16 0x1021) 0xFFFF

/-- The number of flag bits as one byte: bit `i` of the result is the `i`th flag. -/
def flagBits (l : List Bool) : Nat := l.foldr (fun b n => b.toNat + 2 * n) 0

/-! ## Stamps -/

/-- The single count seconds × 32,768 + ticks (R16). -/
def Stamp.total (t : Stamp) : Nat := t.seconds * 32768 + t.ticks

/-- The stamp with the given count (R16). -/
def Stamp.ofTotal (n : Nat) : Stamp := { seconds := n / 32768, ticks := n % 32768 }

/-- `a` is at or before `b` (R16). -/
def Stamp.le (a b : Stamp) : Bool := a.total ≤ b.total

/-- 4 bytes of seconds, 2 bytes of ticks (10). -/
def Stamp.bytes (t : Stamp) : List Byte := be32 t.seconds ++ be16 t.ticks

/-- The stamp at position `i`. -/
def rdStamp (l : List Byte) (i : Nat) : Stamp := { seconds := rd32 l i, ticks := rd16 l (i + 4) }

/-- A capture record's stamp: the arrival less the age, 0:0 when the age is greater (R16, R143). -/
def Stamp.lessAge (arrival : Stamp) (age : Nat) : Stamp := Stamp.ofTotal (arrival.total - age)

/-! ## Records -/

/-- The source codes (10). -/
def Source.code : Source → Nat
  | .host => 0
  | .capture => 1
  | .system => 2

/-- The state byte of a record (R2); `other` has no byte of its own. -/
def RecState.byte : RecState → Byte
  | .free => 0x00
  | .opened => 0x3C
  | .committed => 0xC3
  | .void => 0x66
  | .other => 0xFF

/-- The state a state byte shows (R2, R190). -/
def RecState.ofByte (b : Byte) : RecState :=
  if b = 0x00 then .free else if b = 0x3C then .opened else if b = 0xC3 then .committed
  else if b = 0x66 then .void else .other

/-- The size in units of a record with `len` payload bytes (R1). -/
def sizeUnits (len : Nat) : Nat := 3 + (len + 7) / 8

/-- The key: the first payload byte high, the second low, missing bytes 00h (R8). -/
def keyOf (payload : List Byte) : BitVec 16 := BitVec.ofNat 16 (rd16 payload 0)

/-- Header byte 3: class in bits 3-0, source code in bits 5-4, bit 6 written 0, TIME_UNSET in bit 7 (10, R198). -/
def Record.byte3 (r : Record) : Byte := byte (r.cls % 16 + 16 * r.source.code + 128 * r.unset.toNat)

/-- The 24 header bytes of a record (10): the state byte, then size to age with the payload check given, the header
check given, and the closing field 0000h. -/
def Record.header (r : Record) (st : RecState) (seq : Nat) (payloadCheck headerCheck : Nat) : List Byte :=
  [st.byte, Sys2Proof.byte (sizeUnits r.payload.length), Sys2Proof.byte r.payload.length, r.byte3,
    Sys2Proof.byte r.node, Sys2Proof.byte r.nodeSeq]
    ++ be16 payloadCheck ++ be32 seq ++ r.stamp.bytes ++ be16 r.age ++ be16 headerCheck ++ be16 0

/-- The payload check of a record (R4). -/
def Record.payloadCheck (r : Record) : Nat := (crc16 r.payload).toNat

/-- The header check of a record: the CRC-16 of header bytes 1-19, the payload check among them (R4, 10). -/
def Record.headerCheck (r : Record) (seq : Nat) : Nat :=
  (crc16 (((r.header .committed seq r.payloadCheck 0).drop 1).take 19)).toNat

/-- What the write step writes: the header with state OPEN and both checks 0000h, then the payload (R57). The pad
bytes are not written (R1). -/
def Record.openBytes (r : Record) (seq : Nat) : List Byte := r.header .opened seq 0 0 ++ r.payload

/-- The class of a kind of system record (R10). -/
def SysKind.cls : SysKind → Nat
  | .coldStart | .recovered | .powerDown => 12
  | .timeSet => 13
  | .formatted => 14
  | .silent => 15

/-- The code of a kind of system record (R10). -/
def SysKind.code : SysKind → Nat
  | .coldStart | .timeSet | .formatted | .silent => 1
  | .recovered => 2
  | .powerDown => 3

/-- A system record request: code, qualifier, and the rest of its payload (R10). -/
def SysRequest.make (kind : SysKind) (qualifier : Nat) (rest : List Byte) : SysRequest :=
  { kind := kind, payload := [byte kind.code, byte qualifier] ++ rest }

/-- The record of a system request or a host command, before its stamp: node address FFh, node sequence 0, age 0
(R3). -/
def Record.plain (source : Source) (cls : Nat) (payload : List Byte) : Record :=
  { source := source, cls := cls, payload := payload, node := 255, nodeSeq := 0, age := 0,
    stamp := { seconds := 0, ticks := 0 }, unset := false }

/-! ## Segment headers -/

/-- The stored state byte of a segment state: FILLING 55h, SEALED AAh, and FREE 00h for the rest (R19, R21). -/
def SegState.stored : SegState → Byte
  | .filling => 0x55
  | .sealed => 0xAA
  | .free | .clearing | .prepared => 0x00

/-- The 8 bytes of a segment header: stored state, first sequence number, CRC-8 over those five, 00h 00h (R19, 10). -/
def segHeader (st : SegState) (first : Nat) : List Byte :=
  let body := [st.stored] ++ be32 first
  body ++ [crc8 body, 0x00, 0x00]

/-- The codes of the segment states in responses (10). -/
def SegState.code : SegState → Nat
  | .free => 0
  | .clearing => 1
  | .prepared => 2
  | .filling => 3
  | .sealed => 4

/-- The codes of the blocked reasons in responses (10). -/
def Blocked.code : Blocked → Nat
  | .clear => 0
  | .held => 1
  | .full => 2

/-- The codes of the policies (10). -/
def Policy.code : Policy → Nat
  | .wrap => 0
  | .stop => 1

/-- The codes of the journal states (10). -/
def JournalState.code : JournalState → Nat
  | .notReady => 0
  | .ready => 1
  | .formatting => 2

/-! ## Descriptors -/

/-- A time bound at position `i`: its present flag, then a stamp; the bytes of an absent bound are not read (R199). -/
def rdBound (l : List Byte) (i : Nat) : Option Stamp := if rd8 l i = 1 then some (rdStamp l (i + 1)) else none

/-- The tests on one time bound: flag 0 or 1, and ticks at most 32,767 when present (R81 tests 2 and 3). -/
def boundOk (l : List Byte) (i : Nat) : Bool := rd8 l i ≤ 1 && (rd8 l i == 0 || rd16 l (i + 5) ≤ 32767)

/-- The descriptor in the first 22 bytes of a payload, when it passes the tests of R81. -/
def parseDescriptor (l : List Byte) : Option Descriptor :=
  let d : Descriptor :=
    { sources := BitVec.ofNat 3 (rd8 l 0), classes := BitVec.ofNat 16 (rd16 l 1), nodes := BitVec.ofNat 8 (rd8 l 3),
      key := BitVec.ofNat 16 (rd16 l 4), care := BitVec.ofNat 16 (rd16 l 6), timeFrom := rdBound l 8,
      timeTo := rdBound l 15 }
  let ordered : Bool := match d.timeFrom, d.timeTo with
    | some a, some b => a.le b
    | _, _ => true
  if rd8 l 0 ≤ 7 && boundOk l 8 && boundOk l 15 && ordered then some d else none

/-- The match test on the fields it uses (R82 to R84): source code, class, node address, key and stamp. -/
def Descriptor.accepts (d : Descriptor) (source cls node : Nat) (key : BitVec 16) (stamp : Stamp) : Bool :=
  d.sources.getLsbD source && d.classes.getLsbD cls && (source != 1 || d.nodes.getLsbD node)
    && (key &&& d.care) == (d.key &&& d.care)
    && (match d.timeFrom with | some t => t.le stamp | none => true)
    && (match d.timeTo with | some t => stamp.le t | none => true)

/-- The match test on a commit notice (R89, R114). -/
def Descriptor.acceptsNotice (d : Descriptor) (n : Notice) : Bool :=
  d.accepts n.source.code n.cls n.node n.key n.stamp

/-- The pruning test: the segment of this index entry can hold a match (R85). -/
def Descriptor.canHold (d : Descriptor) (e : IndexEntry) : Bool :=
  (e.sources &&& d.sources) != 0 && (e.classes &&& d.classes) != 0
    && (e.sources != 2 || (e.nodes &&& d.nodes) != 0)
    && (match d.timeFrom, e.maxStamp with | some t, some m => t.le m | some _, none => false | none, _ => true)
    && (match d.timeTo, e.minStamp with | some t, some m => m.le t | some _, none => false | none, _ => true)

/-! ## Command entries -/

/-- The units that carry out commands (R164). -/
inductive CmdUnit where
  | au | js | cu | tb | wu | cp
  deriving DecidableEq, Repr

/-- The unit that carries out an opcode, none for an opcode that no unit carries out (R164, R165). -/
def unitOf (opcode : Byte) : Option CmdUnit :=
  let n := opcode.toNat
  if n = 0x11 then some .au
  else if 0x20 ≤ n && n ≤ 0x23 then some .js
  else if 0x30 ≤ n && n ≤ 0x36 then some .cu
  else if 0x40 ≤ n && n ≤ 0x42 then some .tb
  else if 0x50 ≤ n && n ≤ 0x52 then some .wu
  else if 0x60 ≤ n && n ≤ 0x62 then some .cp
  else none

/-- The value of parameter byte `i` of an entry (R161). -/
def Entry.param (e : Entry) (i : Nat) : Nat := rd8 e.params i

/-- The two-byte parameter at byte `i` (R199). -/
def Entry.param16 (e : Entry) (i : Nat) : Nat := rd16 e.params i

/-- The port that a port byte names, none for any other value (R159). -/
def portOf (b : Byte) : Option Port :=
  if b = 0x10 then some .cmd else if b = 0x20 then some .rsp else if b = 0x30 then some .win
  else if b = 0x40 then some .sts else if b = 0x50 then some .ack else if b = 0x51 then some .mask else none

/-- The entry that the bytes of a CMD transaction after the port byte carry (R161). -/
def parseEntry (bytes : List Byte) : Entry :=
  let e := bytes.drop 2
  { opcode := e.getD 0 0, tag := e.getD 1 0, params := (e.drop 2).take 6, payload := e.drop 8 }

/-- Test 1 of R162: the length field is complete, L lies in 8-248, and L whole entry bytes follow it. -/
def lengthOk (bytes : List Byte) : Bool :=
  2 ≤ bytes.length && 8 ≤ rd16 bytes 0 && rd16 bytes 0 ≤ 248 && bytes.length - 2 == rd16 bytes 0

/-! ## Responses -/

/-- The result codes (R168). -/
def Result.code : Result → Nat
  | .done => 0x00
  | .committed => 0x01
  | .found => 0x02
  | .endReached => 0x03
  | .limit => 0x04
  | .timeout => 0x05
  | .cancelled => 0x06
  | .closed => 0x07
  | .journalFull => 0x10
  | .held => 0x11
  | .seqExhausted => 0x12
  | .badClass => 0x13
  | .badParam => 0x14
  | .cursorBusy => 0x15
  | .cursorClosed => 0x16
  | .unknownCommand => 0x17
  | .notReady => 0x18

/-- A response with clear flags (R168). -/
def Response.plain (tag : Byte) (result : Result) (fields : List Byte) : Response :=
  { tag := tag, result := result, lost := false, limited := false, fields := fields }

/-- The 16 bytes of a response entry; fields that are not used are 00h (R168, 10). -/
def Response.bytes (r : Response) : List Byte :=
  ([r.tag, byte r.result.code, byte (flagBits [r.lost, r.limited])] ++ r.fields ++ List.replicate 13 0x00).take 16

/-- The empty entry: tag 255 and every other byte 00h (R167). -/
def emptyEntryBytes : List Byte := 0xFF :: List.replicate 15 0x00

/-- A position as response bytes: the beyond flag byte, then four bytes, 0 when beyond (R100, R201). -/
def positionBytes (p : Nat) : List Byte := if p = 4294967296 then byte 1 :: be32 0 else byte 0 :: be32 p

/-- An optional number as its four value bytes, 0 when absent (R201). -/
def opt32 (o : Option Nat) : List Byte := be32 (o.getD 0)

/-- An optional stamp as its six value bytes, 0 when absent (R201). -/
def optStamp (o : Option Stamp) : List Byte := (o.getD { seconds := 0, ticks := 0 }).bytes

/-- The codes of the receiver states (10). -/
def Receiver.code : Receiver → Nat
  | .disabled => 0
  | .waitIdle => 1
  | .idle => 2
  | .header => 3
  | .records => 4
  | .trailer => 5
  | .discard => 6
  | .acking => 7

/-- The codes of the cursor states (10). -/
def CursorState.code : CursorState → Nat
  | .closed => 0
  | .ready => 1
  | .scanning => 2
  | .parked => 3

/-- The codes of the reject reasons in the snapshot (10). -/
def Reject.code : Reject → Nat
  | .noReject => 0
  | .length => 1
  | .notReady => 2
  | .full => 3
  | .tag => 4

/-- The codes of the supply states in the snapshot; RESET, RETAIN and OFF serve no snapshot (10). -/
def Supply.code : Supply → Nat
  | .start => 1
  | .coldInit => 2
  | .recover => 3
  | .run => 4
  | .holdup => 5
  | .off | .retain | .reset => 0

/-- A signed two-byte field as sent: two's complement (10, R77). -/
def signed16 (i : Int) : List Byte := be16 (i % 65536).toNat

/-- A two-byte parameter read in two's complement (R199). -/
def readSigned16 (n : Nat) : Int := if n < 32768 then (n : Int) else (n : Int) - 65536

end Sys2Proof.Machine
end

