-- ==== Sys2Proof/Machine/Flags.lean ====
section
/-! DEFINITION. Everything the J64 computes for its interrupt flags, INT#, the status byte, the status snapshot and its
output pins (R158, R169, R172 to R174, R202), and the posting of responses and events at the HP. -/

namespace Sys2Proof.Machine

/-- The seven event flags (R173). -/
inductive Event where
  | watch | silent | capture | high | lost | ready | timeSet
  deriving DecidableEq, Repr

/-- The member number of an event flag (R173). -/
def Event.member : Event → Nat
  | .watch => 1
  | .silent => 2
  | .capture => 3
  | .high => 4
  | .lost => 5
  | .ready => 6
  | .timeSet => 7

/-- An event latches its flag; one already latched stays latched (R173). -/
def Hp.latch (e : Event) (h : Hp) : Hp := { h with events := h.events ||| (1#8 <<< e.member) }

/-- An event reaches the HP, in every state in which it runs (R173). -/
def latch (e : Event) (s : State) : State := s.onHp (Hp.latch e)

/-- The event, when `b` holds. -/
def latchIf (b : Bool) (e : Event) (s : State) : State := if b then latch e s else s

/-- A response joins the back of the response queue; once the HP is OFFLINE it takes none (R167, R176). -/
def Hp.post (r : Response) (h : Hp) : Hp := if h.offline then h else { h with responses := h.responses ++ [r] }

/-- A unit, or the dispatcher, posts a response (R167). -/
def post (r : Response) (s : State) : State := s.onHp (Hp.post r)

/-- Post a response with clear flags. -/
def answer (e : Entry) (result : Result) (fields : List Byte) (s : State) : State :=
  post (Response.plain e.tag result fields) s

/-- The eight interrupt flags: RSP is the state of the response queue (R169), the others are the event flags. -/
def Hp.flags (h : Hp) : BitVec 8 :=
  (h.events &&& 0xFE) ||| (if h.responses.isEmpty then 0 else 1)

/-- INT# is asserted exactly when a flag is set whose enable is set: the eighth law (R174). -/
def Hp.intAsserted (h : Hp) : Bool := (h.flags &&& h.mask) != 0

/-- The main domain is powered and the HP serves transactions: START to HOLDUP (R157, R178). -/
def Supply.powered : Supply → Bool
  | .start | .coldInit | .recover | .run | .holdup => true
  | .off | .retain | .reset => false

/-- The status byte (R158, 10). -/
def statusByteOf (s : State) : Byte :=
  byte (flagBits [false, false, s.js.journal == .ready, s.hp.lastAccepted, s.hp.intAsserted,
    !s.hp.responses.isEmpty, s.hp.outstanding == 8, s.hp.offline])

/-- The next sequence number as sent: 0 while exhausted or not yet set (R172, R201). -/
def NextSeq.sent : NextSeq → Nat
  | .value n => n
  | .exhausted => 0
  | .unset => 0

/-- The 16 bytes of the status snapshot (R172, 10). -/
def snapshotOf (s : State) : List Byte :=
  [byte (16 * s.pc.supply.code + s.js.journal.code), s.hp.flags, s.hp.mask, byte s.hp.commands.length,
    byte s.hp.responses.length, byte (16 * s.hp.outstanding + s.hp.reject.code),
    byte (if s.js.journal = .ready then s.js.used else 0), byte s.hp.unknownPorts]
    ++ be32 s.au.nextSeq.sent ++ be32 s.tb.seconds

/-- What MISO returns in byte `k` after the status byte of the open transaction: the bytes its port gives, and 00h in
every other place (R159, R167, R170, R172). With no transaction open the spec gives no value: it is free (log 43). -/
def misoByte (s : State) (k : Nat) : Byte :=
  match s.hp.tx with
  | some t =>
    match t.port with
    | .statusOnly | .unknown | .taking _ _ => 0x00
    | .rsp (some r) => r.bytes.getD k 0x00
    | .rsp none => emptyEntryBytes.getD k 0x00
    | .win (some c) offset => if k < 2 then 0x00 else (s.cu.cursors[c]).window.getD ((offset + (k - 2)) % 256) 0x00
    | .win none _ => 0x00
    | .sts snap => snap.getD k 0x00
  | none => Config.idleMiso k

/-- The level of an output pin. -/
inductive Level where
  | low | high | highImpedance | data
  deriving DecidableEq, Repr

/-- The output pins (R202): MISO, INT#, CTX, CDE. `data` is a pin that carries the bits of a transaction or frame. -/
structure Pins where
  miso : Level
  int : Level
  ctx : Level
  cde : Level
  deriving DecidableEq, Repr

/-- The pin states (R202). MISO follows the level of CS#, whether or not a transaction is open. -/
def pins (s : State) : Pins :=
  if s.pc.supply.powered then
    { miso := if s.pc.csLow then .data else .highImpedance
      int := if s.hp.intAsserted then .low else .highImpedance
      ctx := if s.cp.receiver = .acking && s.cp.frame.isSome then .data else .high
      cde := if s.cp.receiver = .acking then .high else .low }
  else { miso := .highImpedance, int := .highImpedance, ctx := .highImpedance, cde := .highImpedance }

end Sys2Proof.Machine
end

