-- ==== Sys2Proof/Machine/Ops.lean ====
section
/-! DEFINITION. The record memory and what is read from it: bytes, segment headers, record places, segment walks
(R7, R18, R19). -/

namespace Sys2Proof.Machine

/-! ## The memory -/

/-- The size of the record memory (R18). -/
def memorySize : Nat := 131072

/-- What an address nobody has written reads as (log 4). -/
def unlisted : Byte := 0x00

/-- Read one byte. -/
def Memory.read : Memory → Nat → Byte
  | [], _ => unlisted
  | (a, b) :: m, x => if a = x then b else Memory.read m x

/-- Put one byte at its place in the rising list; the value of an unlisted address is not listed. -/
def Memory.put : Memory → Nat → Byte → Memory
  | [], x, v => if v = unlisted then [] else [(x, v)]
  | (a, b) :: m, x, v =>
    if x < a then (if v = unlisted then (a, b) :: m else (x, v) :: (a, b) :: m)
    else if x = a then (if v = unlisted then m else (x, v) :: m)
    else (a, b) :: Memory.put m x v

/-- Write one byte; no byte exists outside the record memory (R18). -/
def Memory.write (m : Memory) (x : Nat) (v : Byte) : Memory := if x < memorySize then m.put x v else m

/-- Write bytes in the order given. -/
def Memory.writeCells (m : Memory) (cells : List Host.Cell) : Memory :=
  cells.foldl (fun m c => m.write c.1 c.2) m

/-- Zero the `n` bytes from address `x`. -/
def Memory.zero (m : Memory) (x n : Nat) : Memory := m.filter (fun c => c.1 < x || x + n ≤ c.1)

/-- The canonical form: addresses strictly rising and inside the memory, no entry equal to an unlisted byte. -/
def Memory.wf : Memory → Bool
  | [] => true
  | [(a, b)] => b != unlisted && a < memorySize
  | (a, b) :: (a', b') :: m => b != unlisted && a < memorySize && a < a' && Memory.wf ((a', b') :: m)

/-- Read `n` bytes from address `x`. -/
def Memory.bytes (m : Memory) (x n : Nat) : List Byte := (List.range n).map (fun i => m.read (x + i))

/-- Bytes `l` at the addresses from `x` on, as a list of byte writes. -/
def cellsAt (x : Nat) (l : List Byte) : List Host.Cell := (List.range l.length).map (fun i => (x + i, l.getD i 0))

/-- What the bytes of `cells` hold now. -/
def Memory.before (m : Memory) (cells : List Host.Cell) : List Host.Cell := cells.map (fun c => (c.1, m.read c.1))

/-! ## Segments -/

/-- The address of unit `u` of segment `g`: 256 units of 8 bytes each (R18). -/
def unitAddr (g : Seg) (u : Nat) : Nat := g.val * 2048 + u * 8

/-- The first sequence number in the header of segment `g` (R19). -/
def headerFirst (m : Memory) (g : Seg) : Nat := rd32 (m.bytes (unitAddr g 0) 8) 1

/-- The byte writes of a segment header (R19). -/
def headerCells (g : Seg) (st : SegState) (first : Nat) : List Host.Cell := cellsAt (unitAddr g 0) (segHeader st first)

/-- Zero units `u` to 255 of segment `g`. -/
def Memory.zeroUnits (m : Memory) (g : Seg) (u : Nat) : Memory := m.zero (unitAddr g u) ((256 - u) * 8)

/-- A clearing that has zeroed `n` units of `g`, from unit 255 down (R27, R187). -/
def Memory.cleared (m : Memory) (g : Seg) (n : Nat) : Memory := m.zeroUnits g (256 - n)

/-! ## Record places -/

/-- The 24 header bytes of the place at unit `u` of `g`. -/
def placeHeader (m : Memory) (g : Seg) (u : Nat) : List Byte := m.bytes (unitAddr g u) 24

/-- The state of the place at unit `u` of `g`; past unit 255 there is no place, which ends a segment as FREE does
(R7). -/
def placeState (m : Memory) (g : Seg) (u : Nat) : RecState :=
  if u ≤ 255 then RecState.ofByte (m.read (unitAddr g u)) else .free

/-- A stored record as the readers see it. -/
structure Stored where
  state : RecState
  size : Nat
  len : Nat
  cls : Nat
  source : Nat
  unset : Bool
  node : Nat
  nodeSeq : Nat
  payloadCheck : Nat
  seq : Nat
  stamp : Stamp
  age : Nat
  headerCheck : Nat
  key : BitVec 16
  deriving DecidableEq, Repr

/-- The key of the record at unit `u` of `g`, from the payload bytes it has (R8). -/
def keyAt (m : Memory) (g : Seg) (u len : Nat) : BitVec 16 := keyOf (m.bytes (unitAddr g u + 24) (min len 2))

/-- The record at unit `u` of `g` (10, "Record header"). -/
def stored (m : Memory) (g : Seg) (u : Nat) : Stored :=
  let h := placeHeader m g u
  { state := RecState.ofByte (h.getD 0 0), size := rd8 h 1, len := rd8 h 2, cls := rd8 h 3 % 16,
    source := rd8 h 3 / 16 % 4, unset := rd8 h 3 / 128 == 1, node := rd8 h 4, nodeSeq := rd8 h 5,
    payloadCheck := rd16 h 6, seq := rd32 h 8, stamp := rdStamp h 12, age := rd16 h 18, headerCheck := rd16 h 20,
    key := keyAt m g u (rd8 h 2) }

/-- The match test on a stored record (R82). -/
def Descriptor.acceptsStored (d : Descriptor) (r : Stored) : Bool := d.accepts r.source r.cls r.node r.key r.stamp

/-- The starting units of the records of a segment in order, from unit `u`; the walk ends at the first FREE place or
at the end of unit 255 (R7). -/
def recordUnits (m : Memory) (g : Seg) : Nat → Nat → List Nat
  | 0, _ => []
  | fuel + 1, u =>
    if placeState m g u = .free then []
    else
      let size := rd8 (placeHeader m g u) 1
      if size = 0 then [u] else u :: recordUnits m g fuel (u + size)

/-- The records of segment `g`; a segment holds at most 85 (R18). -/
def segmentUnits (m : Memory) (g : Seg) : List Nat := recordUnits m g 86 1

/-- The window image of the record at unit `u` of `g`: size × 8 bytes as stored, the state byte shown as COMMITTED
(R125). -/
def windowImage (m : Memory) (g : Seg) (u : Nat) : List Byte :=
  RecState.committed.byte :: (m.bytes (unitAddr g u) (rd8 (placeHeader m g u) 1 * 8)).drop 1

/-! ## Blocks -/

/-- Replace element `i` of a vector by what `f` makes of it. -/
def vmod {α : Type} {n : Nat} (v : Vector α n) (i : Fin n) (f : α → α) : Vector α n := v.set i.val (f v[i]) i.isLt

/-- The indexes below `n` as elements of `Fin n`, in rising order. -/
def fins (n : Nat) : List (Fin n) := List.finRange n

/-- The time the TB shows (R70). -/
def Tb.now (t : Tb) : Stamp := { seconds := t.seconds, ticks := t.ticks }

/-- Update the index entry of segment `g`. -/
def Js.onEntry (g : Seg) (f : IndexEntry → IndexEntry) (j : Js) : Js := { j with index := vmod j.index g f }

/-- Update cursor `c`. -/
def Cu.onCursor (c : Fin 4) (f : Cursor → Cursor) (u : Cu) : Cu := { u with cursors := vmod u.cursors c f }

/-- Update node `n`. -/
def Cp.onNode (n : Fin 8) (f : Node → Node) (p : Cp) : Cp := { p with nodes := vmod p.nodes n f }

/-- Update burst slot `i`, if it is not free. -/
def Cp.onSlot (i : Fin 2) (f : Burst → Burst) (p : Cp) : Cp := { p with slots := vmod p.slots i (Option.map f) }

/-- A segment is used when it is on the way from the head to the filling segment (R20). -/
def Js.isUsed (j : Js) (g : Seg) : Bool := (g - j.head).val < j.used

/-- The `k`th used segment in journal order, counted from the head (R20). -/
def Js.usedSegs (j : Js) : List Seg := (fins 64).map (fun k => j.head + k) |>.take j.used

/-! ## System record requests -/

/-- A system record is lost: the counter grows and LOST fires (R62). -/
def loseSystem (s : State) : State :=
  latch .lost (s.onAu (fun a => { a with systemLost := sat16 (a.systemLost + 1) }))

/-- A system record request reaches the AU (R46). After the stop request of hold-up it is discarded, not counted
(R64). -/
def requestSystem (q : SysRequest) (s : State) : State :=
  if s.au.holdup ≠ .idle then s
  else if s.au.systemLane.length < 4 then s.onAu (fun a => { a with systemLane := a.systemLane ++ [q] })
  else loseSystem s

end Sys2Proof.Machine
end

