-- ==== Sys2Proof/Machine/JournalOps.lean ====
section
/-! DEFINITION. The Journal Store's shared operations: head and tail sequence, index updates, control block writes,
clearing, holds, reclamation, preparation and opens (chapter 2). -/

namespace Sys2Proof.Machine

/-! ## Head and tail (R15, R20, R100) -/

/-- A segment holds a record: the place at unit 1 is not FREE (R7). -/
def segmentHolds (m : Memory) (g : Seg) : Bool := placeState m g 1 != .free

/-- The journal holds no record: no used segment does (R15, R20). -/
def journalEmpty (s : State) : Bool := s.js.usedSegs.all (fun g => !(segmentHolds s.mem g))

/-- The tail sequence: the number of the record in progress once it is numbered, else the next sequence number, and
4,294,967,296 when numbering is exhausted (R100). -/
def tailSeq (s : State) : Nat :=
  let next := match s.au.nextSeq with
    | .value n => n
    | .exhausted => 4294967296
    | .unset => 0
  match s.au.record with
  | some r => if r.phase = .writing then r.seq else next
  | none => next

/-- The head sequence as the CU takes it: the first sequence number in the head segment's header, or the tail sequence
when the journal holds no record, 4,294,967,296 once numbering is exhausted (R15, R20, R100; log 40). -/
def headSeq (s : State) : Nat := if journalEmpty s then tailSeq s else headerFirst s.mem s.js.head

/-! ## The index (R32 to R34) -/

/-- The earlier of an optional stamp and a stamp. -/
def earliest (o : Option Stamp) (t : Stamp) : Option Stamp :=
  match o with
  | some u => if u.le t then some u else some t
  | none => some t

/-- The later of an optional stamp and a stamp. -/
def latest (o : Option Stamp) (t : Stamp) : Option Stamp :=
  match o with
  | some u => if t.le u then some u else some t
  | none => some t

/-- A COMMITTED record joins an index entry (R33); source code 3 adds no member (R198). -/
def IndexEntry.add (e : IndexEntry) (seq : Nat) (stamp : Stamp) (cls source node : Nat) (unset : Bool) : IndexEntry :=
  { state := e.state, first := some (e.first.getD seq), last := some seq, count := e.count + 1,
    minStamp := earliest e.minStamp stamp, maxStamp := latest e.maxStamp stamp,
    classes := e.classes ||| (1#16 <<< cls), sources := e.sources ||| (1#3 <<< source),
    nodes := if source = 1 then e.nodes ||| (1#8 <<< node) else e.nodes, unset := e.unset || unset }

/-! ## Control block writes (R36, R37) -/

/-- The other copy. -/
def CopyId.other : CopyId → CopyId
  | .a => .b
  | .b => .a

/-- The values a control block write takes at its beginning (R36). -/
def copyValues (generation : Nat) (s : State) : ControlCopy :=
  { generation := generation, head := s.js.head, filling := s.js.filling, policy := s.js.policy, mark := s.js.mark,
    hint := s.au.nextSeq.sent, captureOn := s.cp.enabled, rate := s.cp.rate, gap := s.cp.gap, window := s.cp.window,
    nodes := s.cp.nodes.map (fun n => { enabled := n.enabled, classes := n.classes }), checkOk := true }

/-- A write begins, to `target` with the generation given. -/
def startCopyTo (target : CopyId) (generation : Nat) (s : State) : State :=
  s.onJs (fun j => { j with copyWrite := some { target := target, values := copyValues generation s } })

/-- A write begins: to the copy other than the one written last, with a generation one greater modulo 2^32 (R36). -/
def startCopy (s : State) : State := startCopyTo s.js.lastCopy.other ((s.js.lastGeneration + 1) % 4294967296) s

/-- A control block write is requested (R37). -/
def requestCopy (s : State) : State :=
  if s.js.copyWrite.isSome then s.onJs (fun j => { j with copyPending := true }) else startCopy s

/-- The write that carries a change made now (R37): the one a request starts, or the pending one. -/
def carrier (s : State) : CopyWait := if s.js.copyWrite.isSome then .nextWrite else .thisWrite

/-- Store a copy in the battery domain. -/
def State.setCopy (s : State) (id : CopyId) (c : ControlCopy) : State :=
  match id with
  | .a => { s with copyA := c }
  | .b => { s with copyB := c }

/-- A copy is valid when its check is correct and each field lies within its range (R35). -/
def ControlCopy.valid (c : ControlCopy) : Bool :=
  c.checkOk && c.generation < 4294967296 && 1 ≤ c.mark && c.mark ≤ 64 && c.hint < 4294967296 && c.rate ≤ 3
    && 2 ≤ c.gap && c.gap ≤ 255 && 1 ≤ c.window && c.window ≤ 255
    && c.nodes.toList.all (fun n => (n.classes &&& 0xF000) == 0)

/-- The later of two valid copies: A exactly when its generation less B's, modulo 2^32, lies in 1-2,147,483,647
(R38). -/
def laterCopy (a b : ControlCopy) : CopyId :=
  let d := (a.generation + 4294967296 - b.generation) % 4294967296
  if 1 ≤ d && d ≤ 2147483647 then .a else .b

/-! ## Clearing, holds, reclamation, preparation (R26 to R30) -/

/-- The segment after the filling segment (R26). -/
def Js.next (j : Js) : Seg := j.filling + 1

/-- The clearing of segment `g` begins: it becomes CLEARING and its index entry empty (R27). -/
def startClearing (g : Seg) (s : State) : State :=
  s.onJs (fun j => { j.onEntry g (fun _ => IndexEntry.empty .clearing) with clearing := some g })

/-- The SEALED next segment is held: the hold floor lies below the first sequence number of the segment after it
(R29). -/
def nextHeld (s : State) : Bool :=
  match s.js.holdFloor with
  | some f => f < headerFirst s.mem (s.js.next + 1)
  | none => false

/-- A scan in the slot whose segment is `g` is in a segment that has left journal order (R122; log 41). -/
def CuSlot.leave (g : Seg) (x : CuSlot) : CuSlot :=
  { x with scan := x.scan.map (fun sc => { sc with left := sc.left || sc.seg == g }) }

/-- Reclamation at the JS, steps 1 and 2 (R28): head and used count move, and the counter grows by the COMMITTED records
of the head segment. -/
def Js.dropHead (j : Js) : Js :=
  { j with head := j.head + 1, used := j.used - 1, reclaimed := sat32 (j.reclaimed + (j.index[j.head]).count) }

/-- The reclaim notice of the head segment: the head sequence before is that segment's first sequence number, and the one
after is that of the segment that follows it (R28, R121). -/
def reclaimNotice (s : State) : ReclaimNotice :=
  { seg := s.js.head, oldHead := headerFirst s.mem s.js.head, newHead := headerFirst s.mem (s.js.head + 1), seenBy := [] }

/-- The head segment is reclaimed (R28): head and used count move, the counter grows, the CU gets a reclaim notice, a control
block write is requested, and the clearing starts. -/
def reclaim (s : State) : State :=
  let g := s.js.head
  startClearing g (requestCopy ((s.onJs Js.dropHead).onCu (fun u =>
    { u with reclaims := u.reclaims ++ [reclaimNotice s], slot := u.slot.map (CuSlot.leave g) })))

/-- Set the blocked reason (R26). -/
def setBlocked (b : Blocked) (s : State) : State := s.onJs (fun j => { j with blocked := b })

/-- Preparation of the next segment, at a start or a retry (R26). -/
def prepare (s : State) : State :=
  match (s.js.index[s.js.next]).state with
  | .free => setBlocked .clear (startClearing s.js.next s)
  | .clearing | .prepared => setBlocked .clear s
  | .sealed =>
    match s.js.policy with
    | .stop => setBlocked .full s
    | .wrap => if nextHeld s then setBlocked .held s else setBlocked .clear (reclaim s)
  | .filling => s

/-- The JS takes a hold floor and retries preparation while the journal is READY (R30). -/
def takeFloor (floor : Option Nat) (s : State) : State :=
  let s := s.onJs (fun j => { j with holdFloor := floor })
  if s.js.journal = .ready then prepare s else s

/-! ## Opens (R23, R25) -/

/-- The header writes of an open of segment `g` for a record: the opened segment's, then the old filling segment's,
whose first sequence number is kept (R23 steps 2 and 3). -/
def openCells (g : Seg) (first : Nat) (s : State) : List Host.Cell :=
  headerCells g .filling first ++ headerCells s.js.filling .sealed (headerFirst s.mem s.js.filling)

/-- Steps 1 and 2 of an open of segment `g` for `first` (R23): the states, the HIGH event (R25), the headers given as
`cells`; the fill point becomes 1. -/
def openStates (g : Seg) (cells : List Host.Cell) (s : State) : State :=
  let high : Bool := s.js.used + 1 == s.js.mark
  let s := s.onJs (fun j => { j.onEntry g (fun _ => IndexEntry.empty .filling) with filling := g, used := j.used + 1 })
  latchIf high .high ((s.onMem (·.writeCells cells)).onAu (fun a => { a with fillPoint := 1 }))

/-- The open of segment `g` for a record numbered `first` (R23): the old filling segment becomes SEALED with it. -/
def openFor (g : Seg) (first : Nat) (s : State) : State :=
  let cells := openCells g first s
  let s := s.onJs (fun j => j.onEntry j.filling (fun e => { e with state := .sealed }))
  prepare (requestCopy (openStates g cells s))

/-- The open of segment 0 without a record, by FORMAT and cold initialisation (R23, R44, R196), before the control
block write and the preparation. -/
def openFirst (s : State) : State := openStates 0 (headerCells 0 .filling 0) s

end Sys2Proof.Machine
end

