-- ==== Sys2Proof/Machine/AppendOps.lean ====
section
/-! DEFINITION. The append operation from the checks to its end, and the two changes of supply state that the end of an
append can bring about: the entry into RUN and the hold-up sequence (chapters 3 and 9). -/

namespace Sys2Proof.Machine

/-! ## The record in progress (R53, R56, R57) -/

/-- A record taken from its lane, before its checks. -/
def InProgress.take (data : Record) (origin : Origin) : InProgress :=
  { data := data, origin := origin, phase := .requesting, seq := 0, seg := 0, unit := 0, writes := [], undo := [] }

/-- Set the record in progress. -/
def setRecord (r : Option InProgress) (s : State) : State := s.onAu (fun a => { a with record := r })

/-- The stamp and flag of a record at its number: a capture record keeps its own, the others read the TB (R56). -/
def stampRecord (s : State) (r : Record) : Record :=
  match r.source with
  | .capture => r
  | .host | .system => { r with stamp := s.tb.now, unset := !s.tb.isSet }

/-- The byte writes of the commit of a record at address `x`: the state, then the payload check, then the header check
(R4, R187). -/
def commitCells (x : Nat) (r : Record) (seq : Nat) : List Host.Cell :=
  cellsAt x [RecState.committed.byte] ++ cellsAt (x + 6) (be16 r.payloadCheck) ++ cellsAt (x + 20) (be16 (r.headerCheck seq))

/-- The next sequence number after `n` has been given (R14, R56). -/
def NextSeq.after (n : Nat) : NextSeq := if n = 4294967295 then .exhausted else .value (n + 1)

/-- Stamp and number (R56), then the beginning of the write step (R57): the header rewrite of R24 when the record is to
begin at unit 1 of a segment whose header holds another number, then the record with state OPEN. `opened` are the header
writes of an open made in the same happening, and `undo` what those bytes held before. -/
def beginWrite (opened undo : List Host.Cell) (r : InProgress) (s : State) : State :=
  match s.au.nextSeq with
  | .value n =>
    let u := s.au.fillPoint
    let g := s.js.filling
    let data := stampRecord s r.data
    let rewrite := if u = 1 ∧ headerFirst s.mem g ≠ n then headerCells g .filling n else []
    let cells := rewrite ++ cellsAt (unitAddr g u) (data.openBytes n)
    let r' : InProgress :=
      { r with data := data, phase := .writing, seq := n, seg := g, unit := u,
               writes := opened ++ cells ++ commitCells (unitAddr g u) data n,
               undo := undo ++ s.mem.before cells }
    (s.onMem (·.writeCells cells)).onAu (fun a =>
      { a with nextSeq := NextSeq.after n, fillPoint := min 256 (u + sizeUnits data.payload.length), record := some r' })
  | .exhausted | .unset => setRecord (some { r with phase := .refused .seqExhausted }) s

/-- The checks of an append (R53): exhausted numbering refuses it, a record that fits goes on to its number, and any
other asks the JS for the next segment. -/
def appendChecks (r : InProgress) (s : State) : State :=
  match s.au.nextSeq with
  | .value _ =>
    if s.au.fillPoint + sizeUnits r.data.payload.length - 1 ≤ 255 then beginWrite [] [] r s
    else setRecord (some { r with phase := .requesting }) s
  | .exhausted | .unset => setRecord (some { r with phase := .refused .seqExhausted }) s

/-- The next segment is opened for the record in progress, which then goes on to its number and its write (R54, R23). -/
def openAndWrite (r : InProgress) (s : State) : State :=
  match s.au.nextSeq with
  | .value n =>
    let cells := openCells s.js.next n s
    beginWrite cells (s.mem.before cells) r (openFor s.js.next n s)
  | .exhausted | .unset => setRecord (some { r with phase := .refused .seqExhausted }) s

/-- The record in progress is a refused one. -/
def isRefused (s : State) : Bool :=
  match s.au.record with
  | some r => match r.phase with
    | .refused _ => true
    | .requesting | .waitingClear | .writing => false
  | none => false

/-! ## Hold-up (R181 to R183) -/

/-- A host lane place holds a command whose record is not in progress (R48). -/
def HostPlace.waits (p : HostPlace) : Bool := p.state == .waiting

/-- POWER_DOWN's append, or the close without one, has ended: the AU tells the PC (R64 step 4, R183). -/
def endAuHoldup (s : State) : State :=
  (setRecord none (s.onAu (fun a => { a with holdup := .ended }))).onPc (fun p => { p with step := .auEnded })

/-- The AU closes (R64): the arbiter is paused, the lanes are discarded, and POWER_DOWN is taken without a choice with
the number of records discarded; a refused POWER_DOWN is dropped without counting. While the journal is FORMATTING no
POWER_DOWN is built (R183). -/
def closeAu (s : State) : State :=
  let n := s.au.systemLane.length + (s.au.hostLane.filter HostPlace.waits).length + s.pc.discarded
  let s := s.onAu (fun a => { a with paused := true, systemLane := [], hostLane := [], holdup := .powerDown })
  if s.js.journal = .formatting then endAuHoldup s
  else
    let q := SysRequest.make .powerDown 0 (be16 n)
    let s := appendChecks (InProgress.take (Record.plain .system q.kind.cls q.payload) (.system .powerDown)) s
    if isRefused s then endAuHoldup s else s

/-- A record of a slot that waits in the capture lane. -/
def BurstRecord.isQueued (r : BurstRecord) : Bool := r.res == .queued

/-- The number of queued records of a slot. -/
def queuedIn (b : Option Burst) : Nat :=
  match b with
  | some b => (b.records.filter BurstRecord.isQueued).length
  | none => 0

/-- The queued records of a burst become dropped. -/
def Burst.dropQueued (b : Burst) : Burst :=
  { b with records := b.records.map (fun r => if r.isQueued then { r with res := .dropped } else r) }

/-- The slot claimed for the burst in reception is released, and the burst thrown away (R138, R152, R156). -/
def Cp.dropReception (p : Cp) : Cp :=
  match p.reception with
  | some r =>
    match r.slot with
    | some i => { p with reception := none, slots := vmod p.slots i (fun _ => none) }
    | none => { p with reception := none }
  | none => p

/-- A record of a burst is in append. -/
def Burst.inAppend (b : Burst) : Bool := b.records.any (fun r => r.res == .inAppend)

/-- The hold-up sequence clears a burst (R144, R156, R182): its queued records are dropped with its acknowledge, and its
slot becomes free, but for a slot whose record the AU has in append, which it keeps to the end of the sequence
(log 42). -/
def Burst.cleared (b : Burst) : Option Burst :=
  if b.inAppend then some { b.dropQueued with ack := .dropped, beatsLeft := none } else none

/-- A slot is kept through the hold-up sequence. -/
def Cp.keeps (p : Cp) (i : Fin 2) : Bool := (p.slots[i]).any Burst.inAppend

/-- The CP stops in one happening (R156, R182). -/
def Cp.stop (p : Cp) : Cp :=
  let p := p.dropReception
  { p with queue := [], frame := none, receiver := .disabled, slot := none, stopped := true,
           slots := p.slots.map (fun o => o.bind Burst.cleared), order := p.order.filter p.keeps }

/-- The CU stops its scans; the slot and every parked fetch are discarded (R128, R182). -/
def Cu.stop (u : Cu) : Cu :=
  { u with slot := none, stopped := true,
           cursors := u.cursors.map (fun c => { c with fetchTag := none, beatsLeft := none }) }

/-- The HP goes OFFLINE and discards the host's commands (R176). -/
def Hp.goOffline (h : Hp) : Hp :=
  { h with offline := true, commands := [], responses := [], outstanding := 0, tags := [] }

/-- The J64 enters HOLDUP: steps 1 to 3, and the beginning of step 4 (R181 to R183). No hold floor report reaches the JS
from here on (R182), and a boundary event not yet taken is dropped, since no silence runs out in HOLDUP (R97; log 39). -/
def enterHoldup (s : State) : State :=
  let s := s.onHp Hp.goOffline
  let s := s.onTb (fun t => { t with slot := none, staged := none })
  let s := s.onWu (fun w => { w with slot := none, boundaries := 0 })
  let s := s.onJs (fun j => { j with slot := none, floorReports := [] })
  let n := queuedIn (s.cp.slots[0]) + queuedIn (s.cp.slots[1])
  let s := s.onPc (fun p => { p with supply := .holdup, step := .closingAu, discarded := n })
  let s := (s.onCp Cp.stop).onCu Cu.stop
  let s := s.onAu (fun a => { a with holdup := .asked })
  match s.au.record with
  | some _ => s
  | none => closeAu s

/-! ## The entry into RUN (R194, R197) -/

/-- The journal becomes READY and the J64 enters RUN (R177, R194 step 7, R197 steps 8 and 9). After cold initialisation a
control block write is requested and the latch cleared. The reject reason, the last-accepted flag, the unknown-port
counter and the open transaction take their values of R160. The record just committed is tested by no watch: its notice is
taken with every watch OFF (R97; log 39). A PFI that is low already takes the J64 to HOLDUP (R181). -/
def enterRun (s : State) : State :=
  let s := if s.pc.supply = .coldInit then (requestCopy s).onPc (fun p => { p with latch := false }) else s
  let s := s.onPc (fun p => { p with supply := .run })
  let s := s.onJs (fun j => { j with journal := .ready })
  let s := (latch .ready s).onHp (fun h => { h with offline := false, reject := .noReject, lastAccepted := false,
                                                    unknownPorts := 0, tx := none })
  let s := s.onWu (fun w => { w with notices := [] })
  let s := s.onCp (fun p => { p with receiver := if p.enabled then .waitIdle else .disabled })
  if s.pc.pfiLow then enterHoldup s else s

/-! ## The end of an append (R58 to R64) -/

/-- FORMAT answers DONE when FORMATTED's append and the control block write have both ended (R44 step 11). -/
def finishFormat (s : State) : State :=
  match s.js.slot with
  | some sl =>
    match sl.phase with
    | .formatEnding true none => answer sl.entry .done [] (s.onJs (fun j => { j with slot := none }))
    | .formatEnding _ _ | .dispatched | .policyWait _ | .formatStopping | .formatClearing _ => s
  | none => s

/-- FORMATTED's append has ended (R44 step 11). -/
def formattedEnded (s : State) : State :=
  finishFormat (s.onJs (fun j =>
    match j.slot with
    | some { entry := e, phase := .formatEnding _ w } => { j with slot := some { entry := e, phase := .formatEnding true w } }
    | _ => j))

/-- What waits for the append of this record: RUN for RECOVERED and COLD_START, FORMAT for FORMATTED. -/
def afterAppend (o : Origin) (s : State) : State :=
  match o with
  | .system .recovered | .system .coldStart =>
    if s.pc.supply = .recover ∨ s.pc.supply = .coldInit then enterRun s else s
  | .system .formatted => formattedEnded s
  | .system .powerDown | .system .timeSet | .system .silent | .host _ | .capture _ _ => s

/-- A stop asked for while the record was in progress takes effect at its end: hold-up closes the AU (R64), FORMAT pauses
the arbiter and is told (R63). -/
def stopsAfterAppend (s : State) : State :=
  if s.au.holdup = .asked then closeAu s
  else if s.au.formatAsked then
    (s.onAu (fun a => { a with paused := true, formatAsked := false })).onJs (fun j => { j with auStopped := true })
  else s

/-- The append of a record ends, committed or refused. -/
def endAppend (o : Origin) (s : State) : State :=
  if o = .system .powerDown then endAuHoldup s
  else stopsAfterAppend (afterAppend o (setRecord none s))

/-- The host lane place of the record in progress becomes free (R48). -/
def freePlace (s : State) : State :=
  s.onAu (fun a => { a with hostLane := a.hostLane.filter (fun p => p.state != .inProgress) })

/-- The append of `r` is refused with `code` (R60 to R62): a host record is answered, a system record is dropped and
counted lost (POWER_DOWN without counting, R64), a capture record waits for the CP to take the notice (R61). -/
def refuse (code : Result) (r : InProgress) (s : State) : State :=
  match r.origin with
  | .host tag => endAppend r.origin (freePlace (post (Response.plain tag code []) s))
  | .system .powerDown => endAppend r.origin s
  | .system _ => endAppend r.origin (loseSystem s)
  | .capture i k =>
    (setRecord (some { r with phase := .refused code }) s).onCp
      (fun p => { p with refusal := some { slot := i, place := k, code := code } })

/-- A record whose checks refused it is refused at once (R53, R60). -/
def settleRefusal (s : State) : State :=
  match s.au.record with
  | some r => match r.phase with
    | .refused code => refuse code r s
    | .requesting | .waitingClear | .writing => s
  | none => s

/-- The commit notice of a record (R59). -/
def noticeOf (r : InProgress) : Notice :=
  { seq := r.seq, cls := r.data.cls, source := r.data.source, node := r.data.node, nodeSeq := r.data.nodeSeq,
    stamp := r.data.stamp, unset := r.data.unset, key := keyOf r.data.payload, len := r.data.payload.length,
    seg := r.seg, unit := r.unit }

/-- The commit step (R58): the checks and the state are written, the index entry of the record's segment is updated
(R33), the notices are sent and a host record is answered (R59). -/
def commit (r : InProgress) (s : State) : State :=
  let s := s.onMem (·.writeCells (commitCells (unitAddr r.seg r.unit) r.data r.seq))
  let s := s.onJs (Js.onEntry r.seg (fun e =>
    e.add r.seq r.data.stamp r.data.cls r.data.source.code r.data.node r.data.unset))
  let s := s.onCu (fun u => { u with notices := u.notices ++ [noticeOf r] })
  let s := s.onWu (fun w => { w with notices := w.notices ++ [noticeOf r] })
  match r.origin with
  | .host tag => freePlace (post (Response.plain tag .committed (be32 r.seq ++ r.data.stamp.bytes)) s)
  | .capture i k => s.onCp (fun p =>
      { p with notices := p.notices ++ [{ notice := noticeOf r, slot := i, place := k, oldJournal := false }] })
  | .system _ => s

end Sys2Proof.Machine
end

