-- ==== Sys2Proof/Machine/JournalStore.lean ====
section
/-! DEFINITION. The Journal Store's commands and happenings (chapter 2): FORMAT, SET_POLICY, JOURNAL_STATUS,
SEGMENT_INFO, the hold floor report, the end of a clearing and of a control block write, and FORMAT's second phase. -/

namespace Sys2Proof.Machine

/-! ## The journal commands (R39 to R42) -/

/-- Carry out `f` on the command with this opcode that has been dispatched to the JS's slot and not yet taken. -/
def withJs (opcode : Nat) (f : Entry → State → State) (s : State) : State :=
  match s.js.slot with
  | some { entry := e, phase := .dispatched } => if e.opcode.toNat = opcode then f e s else s
  | _ => s

/-- Set what the JS slot holds. -/
def setJsSlot (sl : Option JsSlot) (s : State) : State := s.onJs (fun j => { j with slot := sl })

/-- The JS answers the command in its slot, which frees the slot. -/
def answerJs (e : Entry) (r : Result) (fields : List Byte) (s : State) : State :=
  answer e r fields (setJsSlot none s)

/-- FORMAT's first phase at the AU (R42, R63): with no record in progress the arbiter is paused at once and the JS told;
otherwise at the end of the append. -/
def askAuToStop (s : State) : State :=
  match s.au.record with
  | none => (s.onAu (fun a => { a with paused := true })).onJs (fun j => { j with auStopped := true })
  | some _ => s.onAu (fun a => { a with formatAsked := true })

/-- FORMAT (20h), R42, R199. -/
def format (e : Entry) (s : State) : State :=
  if 1 < e.param 0 ∨ e.payload ≠ [] then answerJs e .badParam [] s
  else askAuToStop (setJsSlot (some { entry := e, phase := .formatStopping }) s)

/-- SET_POLICY (21h), R39: the values are taken at once, a control block write is requested and preparation retried; the
answer waits for the write that carries the change. -/
def setPolicy (e : Entry) (s : State) : State :=
  if 1 < e.param 0 ∨ e.param 1 < 1 ∨ 64 < e.param 1 ∨ e.payload ≠ [] then answerJs e .badParam [] s
  else
    let w := carrier s
    let s := s.onJs (fun j => { j with policy := if e.param 0 = 0 then .wrap else .stop, mark := e.param 1 })
    let s := requestCopy (setJsSlot (some { entry := e, phase := .policyWait w }) s)
    if s.js.journal = .ready then prepare s else s

/-- The fields of a JOURNAL_STATUS response (R40, 10). -/
def journalFields (s : State) : List Byte :=
  [byte s.js.journal.code, byte s.js.policy.code, byte s.js.mark, byte s.js.head.val, byte s.js.filling.val,
    byte s.js.used, byte ((s.js.index[s.js.next]).state.code + 16 * s.js.blocked.code)]
    ++ be32 s.js.reclaimed ++ be16 s.au.systemLost

/-- JOURNAL_STATUS (22h), R40. -/
def journalStatus (e : Entry) (s : State) : State :=
  if e.payload ≠ [] then answerJs e .badParam [] s else answerJs e .done (journalFields s) s

/-- The fields of one part of a SEGMENT_INFO response (R41, 10). -/
def segmentFields (g : Seg) (part : Nat) (s : State) : List Byte :=
  let x := s.js.index[g]
  match part with
  | 0 => [byte x.state.code, byte x.count, byte (flagBits [x.first.isSome, x.last.isSome])] ++ opt32 x.first ++ opt32 x.last
  | 1 => be16 x.classes.toNat ++ [byte x.sources.toNat, x.nodes, byte x.unset.toNat] ++ be32 (headerFirst s.mem g)
  | _ => [byte (flagBits [x.minStamp.isSome, x.maxStamp.isSome])] ++ optStamp x.minStamp ++ optStamp x.maxStamp

/-- The segment an entry names in parameter byte 0, when the number is at most 63. -/
def Entry.segment (e : Entry) : Option Seg := if h : e.param 0 < 64 then some ⟨e.param 0, h⟩ else none

/-- SEGMENT_INFO (23h), R41. -/
def segmentInfo (e : Entry) (s : State) : State :=
  match e.segment with
  | none => answerJs e .badParam [] s
  | some g =>
    if 2 < e.param 1 ∨ e.payload ≠ [] then answerJs e .badParam [] s
    else answerJs e .done (segmentFields g (e.param 1) s) s

/-- FORMAT. -/
def execFormat (s : State) : Host.Outcome State Fault Refusal := .next (withJs 0x20 format s)

/-- SET_POLICY. -/
def execSetPolicy (s : State) : Host.Outcome State Fault Refusal := .next (withJs 0x21 setPolicy s)

/-- JOURNAL_STATUS. -/
def execJournalStatus (s : State) : Host.Outcome State Fault Refusal := .next (withJs 0x22 journalStatus s)

/-- SEGMENT_INFO. -/
def execSegmentInfo (s : State) : Host.Outcome State Fault Refusal := .next (withJs 0x23 segmentInfo s)

/-! ## The hold floor report (R30) -/

/-- HOLD_FLOOR_REPORT: the JS takes the oldest report of the CU and retries preparation (R30). -/
def execHoldFloorReport (s : State) : Host.Outcome State Fault Refusal :=
  .next (match s.js.floorReports with
    | [] => s
    | f :: rest => takeFloor f (s.onJs (fun j => { j with floorReports := rest })))

/-! ## FORMAT's second and third phases (R43, R44) -/

/-- A cursor closed by FORMAT (R127). -/
def Cursor.closedByFormat (c : Cursor) : Cursor :=
  { c with state := .closed, hold := false, fetchTag := none, fetchLost := false, beatsLeft := none }

/-- A response whose LOST flag is `lost` and that has no fields. -/
def Response.bare (tag : Byte) (r : Result) (lost : Bool) : Response :=
  { tag := tag, result := r, lost := lost, limited := false, fields := [] }

/-- The command that is scanning answers CLOSED and leaves the slot (R127). A loss it still owes is reported with it
(R123, R124; log 15). -/
def closeScanning (s : State) : State :=
  match s.cu.slot with
  | some { entry := e, scan := some sc } =>
    let n := sc.owed
    let s := latchIf (n != 0) .lost
      (s.onCu (fun u => { u.onCursor sc.cursor (fun c => { c with lost := sat32 (c.lost + n) }) with slot := none }))
    post (Response.bare e.tag .closed (sc.skipped + n != 0)) s
  | _ => s

/-- The tag of the fetch that is parked on this cursor, none when none is. -/
def Cursor.parkedTag (x : Cursor) : Option Byte := if x.state = .parked then x.fetchTag else none

/-- The parked fetch of cursor `c` answers `r`, if there is one. -/
def answerParked (r : Result) (c : Fin 4) (s : State) : State :=
  match (s.cu.cursors[c]).parkedTag with
  | some tag => post (Response.bare tag r (s.cu.cursors[c]).fetchLost) s
  | none => s

/-- FORMAT closes every cursor in one happening, and the hold floor becomes absent (R42 step 2, R127). The CLOSED of the
scanning command comes first, then those of the parked fetches in rising cursor number (log 37); the JS takes the absent
floor without a retry of preparation (log 36). -/
def closeCursors (s : State) : State :=
  let s := closeScanning s
  let s := (fins 4).foldl (fun s c => answerParked .closed c s) s
  let s := s.onCu (fun u => { u with cursors := u.cursors.map Cursor.closedByFormat, noOpen := true })
  s.onJs (fun j => { j with holdFloor := none, floorReports := [] })

/-- The COMMITTED records in the journal: the sum of the counts of the used segments (R43). -/
def committedCount (j : Js) : Nat := ((j.usedSegs).map (fun g => (j.index[g]).count)).sum

/-- A clearing in progress is abandoned with `zeroed` units zeroed (R21, R43, R184, R187). -/
def abandonClearing (zeroed : Nat) (s : State) : State :=
  match s.js.clearing with
  | some g => (s.onMem (fun m => m.cleared g zeroed)).onJs (fun j => { j with clearing := none })
  | none => s

/-- All 64 segments become CLEARING with empty entries, and the clearing of segment 0 starts (R43, R196). -/
def clearAll (s : State) : State :=
  s.onJs (fun j => { j with index := Vector.replicate 64 (IndexEntry.empty .clearing), used := 0, head := 0,
                            filling := 0, clearing := some 0 })

/-- AU_STOPPED: the JS goes on with FORMAT: the cursors are closed, the journal becomes FORMATTING and its clearing
starts (R42, R43, R63). -/
def execAuStopped (zeroed : Nat) (s : State) : Host.Outcome State Fault Refusal :=
  .next (match s.js.auStopped, s.js.slot with
    | true, some { entry := e, phase := .formatStopping } =>
      let s := closeCursors (s.onJs (fun j => { j with auStopped := false }))
      let n := committedCount s.js
      let s := clearAll (abandonClearing zeroed s)
      setJsSlot (some { entry := e, phase := .formatClearing n }) (s.onJs (fun j => { j with journal := .formatting }))
    | _, _ => s)

/-- The FORMATTED request goes to the front of the system lane; the request at the back of a full lane is pushed out and
counted lost (R44 step 10, R63). -/
def placeFormatted (q : SysRequest) (s : State) : State :=
  let full : Bool := 4 ≤ s.au.systemLane.length
  let s := s.onAu (fun a => { a with systemLane := q :: a.systemLane.take 3 })
  if full then loseSystem s else s

/-- FORMAT asks for a new numbering (R42). -/
def Entry.renumbers (e : Entry) : Bool := e.param 0 == 1

/-- Every watermark is absent, and a notice of the old journal moves none from now on (R44 step 7, R155; log 18). -/
def Cp.forgetWatermarks (p : Cp) : Cp :=
  { p with
    nodes := p.nodes.map (fun n => { n with committedSeq := none })
    notices := p.notices.map (fun n => { n with oldJournal := true }) }

/-- Steps 4 to 9 of FORMAT (R44), each made whole, in their order. -/
def thirdPhaseSteps (e : Entry) : List (State → State) :=
  [fun s => requestCopy (openFirst s),
    prepare,
    fun s => s.onAu (fun a => { a with nextSeq := if e.renumbers then .value 1 else a.nextSeq }),
    fun s => s.onCp Cp.forgetWatermarks,
    fun s => s.onJs (fun j => { j with reclaimed := 0 }),
    requestCopy]

/-- The first `n` steps of FORMAT's third phase, from step 4 on. -/
def thirdPhase (e : Entry) (n : Nat) (s : State) : State := ((thirdPhaseSteps e).take n).foldl (fun s f => f s) s

/-- Step 10 of FORMAT (R44). Notices of the old journal that the CU has not yet taken find no open cursor (R127), so none is
left (log 18). `w` is the write that carries step 4. -/
def formatReady (e : Entry) (discarded : Nat) (w : CopyWait) (s : State) : State :=
  let s := placeFormatted (SysRequest.make .formatted e.renumbers.toNat (be32 discarded)) s
  let s := s.onAu (fun a => { a with paused := false })
  let s := s.onCu (fun u => { u with noOpen := false, notices := [], reclaims := [] })
  s.onJs (fun j => { j with journal := .ready, slot := some { entry := e, phase := .formatEnding false (some w) } })

/-- FORMAT's third phase, steps 4 to 10 (R44). -/
def formatThirdPhase (e : Entry) (discarded : Nat) (s : State) : State :=
  formatReady e discarded (carrier s) (thirdPhase e 6 s)

/-! ## The end of a clearing (R27) -/

/-- Segment `g` is zeroed and PREPARED (R27). -/
def prepared (g : Seg) (s : State) : State :=
  (s.onMem (fun m => m.cleared g 256)).onJs
    (fun j => { j.onEntry g (fun _ => IndexEntry.empty .prepared) with clearing := none })

/-- FORMAT's clearing of `g` has ended: the next segment is cleared, or the third phase follows (R43, R44). When the
hold-up sequence has taken FORMAT away, no further segment is started (R181). -/
def formatCleared (g : Seg) (s : State) : State :=
  match s.js.slot with
  | some { entry := e, phase := .formatClearing n } =>
    if g.val < 63 then s.onJs (fun j => { j with clearing := some (g + 1) }) else formatThirdPhase e n s
  | _ => s

/-- Cold initialisation's clearing of `g` has ended: the next segment is cleared, or segment 0 is opened and copy A
written with generation 1 (R196 steps 3 to 5). -/
def coldCleared (g : Seg) (s : State) : State :=
  if g.val < 63 then s.onJs (fun j => { j with clearing := some (g + 1) })
  else startCopyTo .a 1 (openFirst s)

/-- The preparation's clearing has ended: an append that waits opens the segment (R27, R55); the retry of preparation
finds nothing to do (R30). -/
def preparationCleared (s : State) : State :=
  match s.au.record with
  | some r =>
    match r.phase with
    | .waitingClear => openAndWrite r s
    | .requesting | .refused _ | .writing => s
  | none => s

/-- CLEARING_END: the zeroing of the segment being cleared ends (R27). -/
def execClearingEnd (s : State) : Host.Outcome State Fault Refusal :=
  .next (match s.js.clearing with
    | none => s
    | some g =>
      let s := prepared g s
      if s.pc.supply = .coldInit then coldCleared g s
      else match s.js.journal with
        | .formatting => formatCleared g s
        | .ready | .notReady => preparationCleared s)

/-! ## The end of a control block write (R36, R37) -/

/-- A command that waits for the write now ended answers DONE (R37, R39, R152, R153). When a JS and a CP command wait for
one write, the JS's DONE is posted first (log 38). -/
def copyCompletes (s : State) : State :=
  let s := match s.js.slot with
    | some { entry := e, phase := .policyWait .thisWrite } => answerJs e .done [] s
    | some { entry := e, phase := .formatEnding a (some .thisWrite) } =>
      finishFormat (setJsSlot (some { entry := e, phase := .formatEnding a none }) s)
    | _ => s
  match s.cp.slot with
  | some { entry := e, phase := .writeWait .thisWrite } => answer e .done [] (s.onCp (fun p => { p with slot := none }))
  | _ => s

/-- The pending write is now the one in progress, for the JS command that waits for it. -/
def JsPhase.promote : JsPhase → JsPhase
  | .policyWait _ => .policyWait .thisWrite
  | .formatEnding a (some _) => .formatEnding a (some .thisWrite)
  | .formatEnding a none => .formatEnding a none
  | .dispatched => .dispatched
  | .formatStopping => .formatStopping
  | .formatClearing n => .formatClearing n

/-- The same for the CP's command. -/
def CpPhase.promote : CpPhase → CpPhase
  | .writeWait _ => .writeWait .thisWrite
  | .dispatched => .dispatched
  | .frameWait => .frameWait

/-- The same for the hold-up sequence. -/
def HoldupStep.promote : HoldupStep → HoldupStep
  | .writing _ => .writing .thisWrite
  | .idle => .idle
  | .closingAu => .closingAu
  | .auEnded => .auEnded

/-- With the pending flag set, the flag is cleared and one further write begins (R37). -/
def nextCopy (s : State) : State :=
  if s.js.copyPending then
    let s := startCopy (s.onJs (fun j => { j with copyPending := false }))
    let s := s.onJs (fun j => { j with slot := j.slot.map (fun x => { x with phase := x.phase.promote }) })
    let s := s.onCp (fun p => { p with slot := p.slot.map (fun x => { x with phase := x.phase.promote }) })
    s.onPc (fun p => { p with step := p.step.promote })
  else s

/-- The copy written is stored whole, and it is now the one written last (R36). -/
def copyWritten (w : CopyWrite) (s : State) : State :=
  (s.setCopy w.target w.values).onJs
    (fun j => { j with copyWrite := none, lastCopy := w.target, lastGeneration := w.values.generation })

end Sys2Proof.Machine
end

