-- ==== Sys2Proof/Machine/CursorOps.lean ====
section
/-! DEFINITION. The Cursor Unit's shared operations: hold floor reports, losses, windows, start positions, and scans
(chapter 6). -/

namespace Sys2Proof.Machine

/-! ## Holds (R118) -/

/-- A cursor holds while it is FORWARD with hold on and not CLOSED (R118). -/
def Cursor.holds (c : Cursor) : Bool := !c.backward && c.hold && c.state != .closed

/-- The lower of an optional number and a number. -/
def lowest (o : Option Nat) (n : Nat) : Option Nat :=
  match o with
  | some m => some (min m n)
  | none => some n

/-- The hold floor: the lowest position among the cursors that hold (R118). -/
def Cu.floor (u : Cu) : Option Nat :=
  u.cursors.toList.foldl (fun o c => if c.holds then lowest o c.position else o) none

/-- A change of the floor that lowers it (R118): it becomes present, or a lower number. -/
def floorLowered (old new : Option Nat) : Bool :=
  match old, new with
  | some a, some b => b < a
  | none, some _ => true
  | _, none => false

/-- The CU reports a changed hold floor (R118). The JS takes a report that lowers the floor in the same happening; any
other is on its way until HOLD_FLOOR_REPORT. -/
def reportFloor (old : Option Nat) (s : State) : State :=
  let new := s.cu.floor
  if new = old then s
  else if floorLowered old new then takeFloor new (s.onJs (fun j => { j with floorReports := [] }))
  else s.onJs (fun j => { j with floorReports := j.floorReports ++ [new] })

/-- Carry out a happening of the CU, and report the hold floor if it has changed it. -/
def withFloor (f : State → State) (s : State) : State := reportFloor s.cu.floor (f s)

/-- Update cursor `c`. -/
def onCursor (c : Fin 4) (f : Cursor → Cursor) (s : State) : State := s.onCu (Cu.onCursor c f)

/-! ## Losses (R120, R121, R124) -/

/-- A loss of `n` numbers on cursor `c` is reported: it joins numbers lost and the LOST event is sent; a loss of 0 is not
reported (R124). -/
def reportLoss (c : Fin 4) (n : Nat) (s : State) : State :=
  if n = 0 then s else latch .lost (onCursor c (fun x => { x with lost := sat32 (x.lost + n) }) s)

/-- The count of numbers that the loss check finds for a cursor: the numbers below the head sequence that a forward
cursor has been overtaken by, or the pending loss of a backward cursor (R120, R121). -/
def lossFound (c : Fin 4) (s : State) : Nat :=
  let x := s.cu.cursors[c]
  if x.backward then x.pendingLoss else headSeq s - x.position

/-- The loss check at the start of FETCH, COUNT and SEEK (R120, R121). -/
def lossCheck (c : Fin 4) (s : State) : State :=
  let h := headSeq s
  reportLoss c (lossFound c s)
    (onCursor c (fun x => if x.backward then { x with pendingLoss := 0 } else { x with position := max x.position h }) s)

/-! ## Windows (R125) -/

/-- The host has a WIN transaction open on cursor `c` (R170). -/
def winOpen (c : Fin 4) (s : State) : Bool :=
  match s.hp.tx with
  | some t => match t.port with
    | .win (some d) _ => d == c
    | .win none _ | .statusOnly | .unknown | .taking _ _ | .rsp _ | .sts _ => false
  | none => false

/-- The CU changes the window of cursor `c`; while a WIN transaction has it open the change is held (R125, R171). -/
def setWindow (c : Fin 4) (image : List Byte) (s : State) : State :=
  if winOpen c s then onCursor c (fun x => { x with heldWindow := some image }) s
  else onCursor c (fun x => { x with window := image }) s

/-! ## Start positions (R107, R108) -/

/-- The start position before the clamp: HEAD 0, TAIL 1, SEQ 2 (R107). -/
def startPosition (backward : Bool) (kind n : Nat) (s : State) : Nat :=
  let limit := if backward then tailSeq s - 1 else tailSeq s
  if kind = 0 then headSeq s else if kind = 1 then limit else min n limit

/-- The count of numbers that the clamp of a start skips (R107). -/
def clampLoss (start : Nat) (s : State) : Nat := headSeq s - start

/-! ## The end of a scan -/

/-- A scan ends: its cursor becomes READY at `pos`, a loss still owed is reported, the response is posted with the fields
that `fields` makes of the numbers skipped, at most 4,294,967,295 of them (log 44), and the slot is free (R110, R112,
R124). -/
def endScan (e : Entry) (sc : Scan) (pos : Nat) (result : Result) (limited : Bool) (fields : Nat → List Byte)
    (s : State) : State :=
  withFloor (fun s =>
    let s := reportLoss sc.cursor sc.owed s
    let skipped := sat32 (sc.skipped + sc.owed)
    let s := onCursor sc.cursor (fun x => { x with state := .ready, position := pos }) s
    let s := s.onCu (fun u => { u with slot := none })
    post { tag := e.tag, result := result, lost := skipped != 0, limited := limited, fields := fields skipped } s) s

/-- The fields of END and LIMIT, and of a SEEK's DONE: position and numbers skipped (10). -/
def positionFields (pos skipped : Nat) : List Byte := positionBytes pos ++ be32 skipped

/-- The fields of FOUND: sequence number, class, payload length, stamp (R110, 10). -/
def foundFields (seq cls len : Nat) (t : Stamp) : List Byte := be32 seq ++ [byte cls, byte len] ++ t.bytes

/-- One more match delivered (R98). -/
def countDelivered (c : Fin 4) (s : State) : State :=
  onCursor c (fun x => { x with delivered := sat32 (x.delivered + 1) }) s

/-- The position of the cursor of a scan. -/
def scanPosition (sc : Scan) (s : State) : Nat := (s.cu.cursors[sc.cursor]).position

/-- A COUNT ends: the position stays as it was (R112). -/
def endCount (e : Entry) (sc : Scan) (limited : Bool) (s : State) : State :=
  endScan e sc (scanPosition sc s) .done limited (fun skipped => be32 sc.found ++ be32 skipped) s

/-- A SEEK TIME ends at `pos`; a forward position below the head sequence becomes the head sequence, with no loss
reported (R109). -/
def endSeek (e : Entry) (sc : Scan) (pos : Nat) (s : State) : State :=
  let p := if (s.cu.cursors[sc.cursor]).backward then pos else max pos (headSeq s)
  endScan e sc p .done false (positionFields p) s

/-- A FETCH parks at the tail: the slot is free and the timeout wait begins (R113). -/
def park (e : Entry) (sc : Scan) (tail : Nat) (s : State) : State :=
  withFloor (fun s =>
    let s := onCursor sc.cursor (fun x =>
      { x with state := .parked, position := tail, fetchTag := some e.tag, fetchLost := sc.skipped != 0,
               beatsLeft := if x.timeout = 0 then none else some x.timeout }) s
    s.onCu (fun u => { u with slot := none })) s

/-- A forward scan is at the tail (R103, R109, R110, R112, R113). -/
def atTail (e : Entry) (sc : Scan) (s : State) : State :=
  let tail := tailSeq s
  match sc.kind with
  | .fetch =>
    if (s.cu.cursors[sc.cursor]).follow then park e sc tail s
    else endScan e sc tail .endReached false (positionFields tail) s
  | .count => endCount e sc false s
  | .seekTime _ => endSeek e sc tail s

/-- A backward scan is at the head, and its position becomes `before` (R104, R109, R110, R112, R123). -/
def atHead (e : Entry) (sc : Scan) (before : Nat) (s : State) : State :=
  match sc.kind with
  | .fetch => endScan e sc before .endReached false (positionFields before) s
  | .count => endCount e sc false s
  | .seekTime _ => endSeek e sc before s

/-! ## A scan in flight -/

/-- Put a scan back into the slot. -/
def setScan (e : Entry) (sc : Scan) (s : State) : State :=
  s.onCu (fun u => { u with slot := some { entry := e, scan := some sc } })

/-- The place after a record that has been examined without ending the scan. -/
structure Onward where
  pos : Nat
  unit : Nat
  deriving DecidableEq, Repr

/-- A COMMITTED record in the scan's range is examined (R102 to R105, R109): it ends the scan, uses up the budget, or
the scan goes on. -/
def examine (e : Entry) (sc : Scan) (u : Nat) (next : Onward) (s : State) : State :=
  let x := s.cu.cursors[sc.cursor]
  let r := stored s.mem sc.seg u
  let onward : Scan := { sc with pos := next.pos, unit := some next.unit, examined := sc.examined + 1 }
  match sc.kind with
  | .fetch =>
    if x.desc.acceptsStored r then
      endScan e sc next.pos .found false (fun _ => foundFields r.seq r.cls r.len r.stamp)
        (countDelivered sc.cursor (setWindow sc.cursor (windowImage s.mem sc.seg u) s))
    else if sc.examined + 1 = x.budget then endScan e sc next.pos .limit false (positionFields next.pos) s
    else setScan e onward s
  | .count =>
    let onward := { onward with found := if x.desc.acceptsStored r then sc.found + 1 else sc.found }
    if sc.examined + 1 = x.budget then endCount e onward true s else setScan e onward s
  | .seekTime t =>
    if (if x.backward then r.stamp.le t else t.le r.stamp) then endSeek e sc r.seq s else setScan e onward s

/-- The scan passes over a segment with this index entry without reading it: the pruning test (R85), or for SEEK TIME its
own test (R109). -/
def scanPrunes (sc : Scan) (x : Cursor) (entry : IndexEntry) : Bool :=
  match sc.kind with
  | .fetch | .count => !(x.desc.canHold entry)
  | .seekTime t =>
    if x.backward then (match entry.minStamp with | some m => !(m.le t) | none => true)
    else (match entry.maxStamp with | some m => !(t.le m) | none => true)

/-- A COMMITTED record numbered `seq` lies in the scan's range: every one for SEEK TIME (R109), those at or above, or for
a backward scan at or below, the number to be examined next otherwise (R102, R104). -/
def inRange (sc : Scan) (backward : Bool) (seq : Nat) : Bool :=
  match sc.kind with
  | .seekTime _ => true
  | .fetch | .count => if backward then seq ≤ sc.pos else sc.pos ≤ seq

/-- Cursor `c` has not learned of this reclamation by reading. -/
def ReclaimNotice.unseenBy (c : Fin 4) (n : ReclaimNotice) : Bool := !(n.seenBy.contains c)

/-- The reclaim notices on their way that cursor `c` has not learned of by reading, oldest first. -/
def unseen (c : Fin 4) (s : State) : List ReclaimNotice := s.cu.reclaims.filter (ReclaimNotice.unseenBy c)

/-- Cursor `c` learns by reading of these reclamations, oldest first, up to the first new one that `stop` accepts. -/
def learn (c : Fin 4) (stop : ReclaimNotice → Bool) : List ReclaimNotice → List ReclaimNotice
  | [] => []
  | n :: rest =>
    { n with seenBy := c :: n.seenBy } :: (if n.unseenBy c && stop n then rest else learn c stop rest)

/-- The reclaim notices on their way, up to the first new one that `stop` accepts, will change nothing more for cursor `c`
(R122). -/
def markSeen (c : Fin 4) (stop : ReclaimNotice → Bool) (s : State) : State :=
  s.onCu (fun u => { u with reclaims := learn c stop u.reclaims })

/-- A forward scan has been overtaken: it goes on from the first record of segment `g` at the head sequence `h`, and the
numbers skipped are reported, but for SEEK TIME (R109, R122). A reclaim notice of `g` still on its way says that `g` has
left journal order too. -/
def overtakeForward (e : Entry) (sc : Scan) (g : Seg) (h : Nat) (s : State) : State :=
  let n := match sc.kind with
    | .seekTime _ => 0
    | .fetch | .count => h - sc.pos
  setScan e { sc with seg := g, unit := none, pos := max sc.pos h, skipped := sat32 (sc.skipped + n)
                      left := (unseen sc.cursor s).any (fun n => n.seg == g) }
    (reportLoss sc.cursor n s)

/-- The place of a backward scan that has nothing more to read in its segment or below: before the first record of the
head segment. -/
def Scan.atHeadOf (g : Seg) (sc : Scan) : Scan := { sc with seg := g, unit := some 1, left := false }

/-- What one reclamation means to a backward FETCH or COUNT (R123): whether it ends the scan, and the numbers it adds to
those the scan owes. -/
def ReclaimNotice.loss (n : ReclaimNotice) (q : Nat) : Bool × Nat :=
  if q < n.newHead then (true, q + 1 - n.oldHead) else (false, n.newHead - n.oldHead)

/-- The same for reclamations one after another: the first that ends the scan is the last that counts (R123). -/
def lossesOf (q : Nat) : List ReclaimNotice → Bool × Nat
  | [] => (false, 0)
  | n :: rest =>
    let one := n.loss q
    if one.1 then one else ((lossesOf q rest).1, one.2 + (lossesOf q rest).2)

/-- A backward scan goes on after reclamations that make it owe `l.2` more numbers, or ends at once with its position at
`before`, the number before the new head (R123). -/
def afterReclaims (e : Entry) (sc : Scan) (l : Bool × Nat) (before : Nat) (s : State) : State :=
  let sc := { sc with owed := sc.owed + l.2 }
  if l.1 then atHead e sc before s else setScan e sc s

/-- This reclamation leaves a backward scan nothing more to read: it takes away the number to be examined next (R123), or,
for SEEK to a TIME, the segment the scan is in (R109). -/
def Scan.endedBy (sc : Scan) (n : ReclaimNotice) : Bool :=
  match sc.kind with
  | .seekTime _ => n.seg == sc.seg
  | .fetch | .count => decide (sc.pos < n.newHead)

/-- The number before the new head of the reclamation that ends a backward scan, which the scan finds by reading (R109,
R123). -/
def beforeGone (sc : Scan) (s : State) : Nat :=
  match (unseen sc.cursor s).find? sc.endedBy with
  | some n => n.newHead - 1
  | none => headSeq s - 1

/-- A scan finds, when it reads, that its segment has left journal order (R122, R123). A forward scan goes on from the
present head, and has learned of every notice on its way. A backward one ends before the new head of the reclamation that
leaves it nothing to read, and has learned of no later one, whose notice its cursor takes like any other (R121); with none
such it has learned of all. A backward SEEK to a TIME ends without a loss (R109). -/
def findsGone (e : Entry) (sc : Scan) (s : State) : State :=
  if (s.cu.cursors[sc.cursor]).backward then
    let t := markSeen sc.cursor sc.endedBy s
    match sc.kind with
    | .seekTime _ => atHead e sc (beforeGone sc s) t
    | .fetch | .count =>
      afterReclaims e (sc.atHeadOf s.js.head) (lossesOf sc.pos (unseen sc.cursor s)) (beforeGone sc s) t
  else overtakeForward e sc s.js.head (headSeq s) (markSeen sc.cursor (fun _ => false) s)

/-- A forward scan reads the place at unit `u` of a segment that is not the filling segment, or finds a record there
(R102, R103). -/
def readForward (e : Entry) (sc : Scan) (u : Nat) (s : State) : State :=
  let r := stored s.mem sc.seg u
  match placeState s.mem sc.seg u with
  | .committed =>
    if inRange sc false r.seq then examine e sc u { pos := r.seq + 1, unit := u + r.size } s
    else setScan e { sc with unit := some (u + r.size) } s
  | .void => setScan e { sc with unit := some (u + r.size) } s
  | .free | .opened | .other => setScan e { sc with seg := sc.seg + 1, unit := none, left := false } s

/-- A place that ends the records of a segment, or holds the record in progress (R103). -/
def atOpenEnd (m : Memory) (g : Seg) (u : Nat) : Bool :=
  match placeState m g u with
  | .free | .opened | .other => true
  | .committed | .void => false

/-- One step of a forward scan (R102). At the filling segment, and at a FREE or OPEN place in it, the tail test is the
scan's next happening and nothing changes here (R103). -/
def stepForward (e : Entry) (sc : Scan) (s : State) : State :=
  match sc.unit with
  | none =>
    if sc.seg = s.js.filling then s
    else if scanPrunes sc (s.cu.cursors[sc.cursor]) (s.js.index[sc.seg]) then
      setScan e { sc with seg := sc.seg + 1, left := false } s
    else setScan e { sc with unit := some 1 } s
  | some u => if sc.seg = s.js.filling ∧ atOpenEnd s.mem sc.seg u then s else readForward e sc u s

/-- A backward scan leaves segment `seg` for the one before it, or is at the head (R104). -/
def leaveBackward (e : Entry) (sc : Scan) (s : State) : State :=
  if sc.seg = s.js.head then atHead e sc (headSeq s - 1) s
  else setScan e { sc with seg := sc.seg - 1, unit := none, left := false } s

/-- The last record of segment `g` that begins below unit `u` (R104). -/
def lastBelow (m : Memory) (g : Seg) (u : Nat) : Option Nat := ((segmentUnits m g).filter (fun v => v < u)).getLast?

/-- One step of a backward scan (R104). -/
def stepBackward (e : Entry) (sc : Scan) (s : State) : State :=
  match sc.unit with
  | none =>
    if scanPrunes sc (s.cu.cursors[sc.cursor]) (s.js.index[sc.seg]) then leaveBackward e sc s
    else setScan e { sc with unit := some 256 } s
  | some u =>
    match lastBelow s.mem sc.seg u with
    | none => leaveBackward e sc s
    | some v =>
      let r := stored s.mem sc.seg v
      if r.state = .committed ∧ inRange sc true r.seq then examine e sc v { pos := r.seq - 1, unit := v } s
      else setScan e { sc with unit := some v } s

/-- The tail test (R103): a pruned filling segment, and a FREE or OPEN place in it, are the tail; a record that has been
committed there since is read. In a segment that is no longer the filling segment a FREE place ends the segment, and a
scan that has reached no place of it yet reads it from unit 1 like any SEALED segment (log 14). -/
def tailTest (e : Entry) (sc : Scan) (s : State) : State :=
  match sc.unit with
  | none =>
    if sc.seg ≠ s.js.filling then s
    else if scanPrunes sc (s.cu.cursors[sc.cursor]) (s.js.index[sc.seg]) then atTail e sc s
    else setScan e { sc with unit := some 1 } s
  | some u => if sc.seg = s.js.filling ∧ atOpenEnd s.mem sc.seg u then atTail e sc s else readForward e sc u s

/-- The segment a scan from position `p` begins in: the latest used segment whose header holds a first sequence number
other than 0 and at or below `p`, or else the head segment (R102, R104). -/
def scanStart (p : Nat) (s : State) : Seg :=
  ((s.js.usedSegs.filter (fun g => headerFirst s.mem g != 0 && headerFirst s.mem g ≤ p)).getLast?).getD s.js.head

/-- A scan from position `p` in segment `g`, with `skipped` numbers already reported. -/
def Scan.begin (c : Fin 4) (kind : ScanKind) (p : Nat) (g : Seg) (skipped : Nat) : Scan :=
  { cursor := c, kind := kind, pos := p, seg := g, unit := none, examined := 0, found := 0, skipped := skipped, owed := 0,
    left := false }

end Sys2Proof.Machine
end

