-- ==== Sys2Proof/Machine/CursorUnit.lean ====
section
/-! DEFINITION. The Cursor Unit's commands and happenings (chapter 6). -/

namespace Sys2Proof.Machine

/-! ## Taking a command (R101) -/

/-- Carry out `f` on the command with this opcode that has been dispatched to the CU's slot and not yet taken. -/
def withCu (opcode : Nat) (f : Entry → State → State) (s : State) : State :=
  match s.cu.slot with
  | some { entry := e, scan := none } => if e.opcode.toNat = opcode then f e s else s
  | _ => s

/-- The CU answers the command in its slot, which frees the slot. -/
def answerCu (e : Entry) (r : Result) (lost : Bool) (fields : List Byte) (s : State) : State :=
  post { tag := e.tag, result := r, lost := lost, limited := false, fields := fields }
    (s.onCu (fun u => { u with slot := none }))

/-- A test that fails gives its result and changes nothing else (R101). -/
def rejectCu (e : Entry) (r : Result) (s : State) : State := answerCu e r false [] s

/-- The cursor an entry names in parameter byte 0, when the number is at most 3. -/
def Entry.cursor (e : Entry) : Option (Fin 4) := if h : e.param 0 < 4 then some ⟨e.param 0, h⟩ else none

/-- Tests 1 to 3 of R101 for a command other than OPEN; `moves` holds for FETCH, COUNT and SEEK. -/
def withCursor (moves : Bool) (f : Fin 4 → Entry → State → State) (e : Entry) (s : State) : State :=
  match e.cursor with
  | none => rejectCu e .badParam s
  | some c =>
    if (s.cu.cursors[c]).state = .closed then rejectCu e .cursorClosed s
    else if moves ∧ (s.cu.cursors[c]).state = .parked then rejectCu e .cursorBusy s
    else f c e s

/-! ## OPEN and SEEK (R106 to R109) -/

/-- The first of R106's tests that an OPEN of cursor `c` fails, or its descriptor when it passes them all. -/
def openTest (c : Fin 4) (e : Entry) (s : State) : Result ⊕ Descriptor :=
  let o := e.param 1
  let kind := rd8 e.payload 22
  if s.cu.noOpen then .inl .notReady
  else if (s.cu.cursors[c]).state ≠ .closed then .inl .cursorBusy
  else if 7 < o ∨ (o.testBit 0 ∧ (o.testBit 1 ∨ o.testBit 2)) then .inl .badParam
  else if e.payload.length ≠ 27 then .inl .badParam
  else if e.param16 2 = 0 then .inl .badParam
  else if 2 < kind ∨ (kind = 2 ∧ rd32 e.payload 23 = 0) then .inl .badParam
  else match parseDescriptor e.payload with
    | none => .inl .badParam
    | some d => .inr d

/-- A cursor set up by an OPEN at position `pos` (R107). -/
def Cursor.opened (x : Cursor) (e : Entry) (d : Descriptor) (pos : Nat) : Cursor :=
  { x with state := .ready, backward := (e.param 1).testBit 0, follow := (e.param 1).testBit 1,
           hold := (e.param 1).testBit 2, desc := d, position := pos, timeout := e.param16 4, budget := e.param16 2,
           delivered := 0, lost := 0, pendingLoss := 0, fetchTag := none, fetchLost := false, beatsLeft := none }

/-- OPEN (30h), R106 and R107. The count of numbers skipped is sent as at most 4,294,967,295 (log 44). -/
def openCursor (e : Entry) (s : State) : State :=
  match e.cursor with
  | none => rejectCu e .badParam s
  | some c =>
    match openTest c e s with
    | .inl r => rejectCu e r s
    | .inr d =>
      let start := startPosition ((e.param 1).testBit 0) (rd8 e.payload 22) (rd32 e.payload 23) s
      let n := clampLoss start s
      let pos := max start (headSeq s)
      let s := withFloor (fun s => setWindow c [] (onCursor c (fun x => x.opened e d pos) s)) s
      answerCu e .done (n != 0) (positionFields pos (sat32 n)) (reportLoss c n s)

/-- The payload length that suits a start kind of SEEK: empty for HEAD and TAIL, 4 bytes for SEQ, 6 for TIME (R108). -/
def seekLength (kind : Nat) : Nat := if kind = 2 then 4 else if kind = 3 then 6 else 0

/-- The tests of a SEEK after R101 (R108). -/
def seekOk (e : Entry) : Bool :=
  e.param 1 ≤ 3 && e.payload.length == seekLength (e.param 1)
    && (e.param 1 != 2 || rd32 e.payload 0 != 0) && (e.param 1 != 3 || rd16 e.payload 4 ≤ 32767)

/-- SEEK (31h) to HEAD, TAIL or SEQ (R108). The two losses together are sent as at most 4,294,967,295 (log 44). -/
def seek (c : Fin 4) (e : Entry) (s : State) : State :=
  if !(seekOk e) then rejectCu e .badParam s
  else
    let n := lossFound c s
    let s := lossCheck c s
    let start := startPosition (s.cu.cursors[c]).backward (e.param 1) (rd32 e.payload 0) s
    let m := clampLoss start s
    let pos := max start (headSeq s)
    let s := withFloor (onCursor c (fun x => { x with position := pos })) s
    answerCu e .done (n + m != 0) (positionFields pos (sat32 (n + m))) (reportLoss c m s)

/-- The cursor becomes SCANNING with this scan in the slot (R99). -/
def startScan (e : Entry) (sc : Scan) (s : State) : State :=
  setScan e sc (onCursor sc.cursor (fun x => { x with state := .scanning }) s)

/-- SEEK (31h) with start TIME (R109). -/
def seekTime (c : Fin 4) (e : Entry) (s : State) : State :=
  if !(seekOk e) then rejectCu e .badParam s
  else
    let n := lossFound c s
    let s := lossCheck c s
    let g := if (s.cu.cursors[c]).backward then s.js.filling else s.js.head
    startScan e (Scan.begin c (.seekTime (rdStamp e.payload 0)) 0 g (sat32 n)) s

/-! ## FETCH and COUNT (R110, R112) -/

/-- A FETCH or COUNT begins: the loss check, then the scan from the position; a position already at the tail, or before
the head, is at that end at once (R104, R110). -/
def beginScan (kind : ScanKind) (c : Fin 4) (e : Entry) (s : State) : State :=
  if e.payload ≠ [] then rejectCu e .badParam s
  else
    let n := lossFound c s
    let s := lossCheck c s
    let p := (s.cu.cursors[c]).position
    let sc := Scan.begin c kind p (scanStart p s) (sat32 n)
    let s := startScan e sc s
    if (s.cu.cursors[c]).backward then (if p < headSeq s then atHead e sc (headSeq s - 1) s else s)
    else if tailSeq s ≤ p then atTail e sc s else s

/-! ## CANCEL, CLOSE, CURSOR_STATUS (R116, R117, R126) -/

/-- A parked cursor's fetch has ended: READY, with no wait left. -/
def Cursor.unparked (x : Cursor) : Cursor :=
  if x.state = .parked then { x with state := .ready, fetchTag := none, fetchLost := false, beatsLeft := none } else x

/-- CANCEL (34h): a parked fetch answers CANCELLED, and then CANCEL answers DONE (R116). -/
def cancel (c : Fin 4) (e : Entry) (s : State) : State :=
  if e.payload ≠ [] then rejectCu e .badParam s
  else answerCu e .done false [] (onCursor c Cursor.unparked (answerParked .cancelled c s))

/-- CLOSE (35h): a parked fetch answers CLOSED, the cursor closes with its hold off, and then CLOSE answers DONE
(R117). -/
def close (c : Fin 4) (e : Entry) (s : State) : State :=
  if e.payload ≠ [] then rejectCu e .badParam s
  else
    let s := withFloor (fun s => onCursor c Cursor.closedByFormat (answerParked .closed c s)) s
    answerCu e .done false [] s

/-- The fields of CURSOR_STATUS (R126, 10). -/
def Cursor.statusFields (x : Cursor) : List Byte :=
  let beyond : Bool := x.position == 4294967296
  [byte (x.state.code + 4 * x.backward.toNat + 8 * x.follow.toNat + 16 * x.hold.toNat + 128 * beyond.toNat)]
    ++ be32 (if beyond then 0 else x.position) ++ be32 x.delivered ++ be32 x.lost

/-- CURSOR_STATUS (36h), R126. -/
def cursorStatus (c : Fin 4) (e : Entry) (s : State) : State :=
  if e.payload ≠ [] then rejectCu e .badParam s else answerCu e .done false (s.cu.cursors[c]).statusFields s

/-- OPEN. -/
def execOpenCursor (s : State) : Host.Outcome State Fault Refusal := .next (withCu 0x30 openCursor s)

/-- A SEEK entry names start TIME (R108). -/
def isTimeSeek (e : Entry) : Bool := e.param 1 == 3

/-- SEEK, with a start other than TIME. -/
def execSeek (s : State) : Host.Outcome State Fault Refusal :=
  .next (withCu 0x31 (fun e s => if isTimeSeek e then s else withCursor true seek e s) s)

/-- SEEK with start TIME. -/
def execSeekTime (s : State) : Host.Outcome State Fault Refusal :=
  .next (withCu 0x31 (fun e s => if isTimeSeek e then withCursor true seekTime e s else s) s)

/-- FETCH. -/
def execFetch (s : State) : Host.Outcome State Fault Refusal :=
  .next (withCu 0x32 (withCursor true (beginScan .fetch)) s)

/-- COUNT. -/
def execCount (s : State) : Host.Outcome State Fault Refusal :=
  .next (withCu 0x33 (withCursor true (beginScan .count)) s)

/-- CANCEL. -/
def execCancel (s : State) : Host.Outcome State Fault Refusal := .next (withCu 0x34 (withCursor false cancel) s)

/-- CLOSE. -/
def execClose (s : State) : Host.Outcome State Fault Refusal := .next (withCu 0x35 (withCursor false close) s)

/-- CURSOR_STATUS. -/
def execCursorStatus (s : State) : Host.Outcome State Fault Refusal :=
  .next (withCu 0x36 (withCursor false cursorStatus) s)

/-! ## Scans (R102 to R105, R122, R123) -/

/-- Carry out `f` on the scan in flight; a scan whose segment has left journal order is overtaken instead (R122;
log 41). -/
def withScan (f : Entry → Scan → State → State) (s : State) : State :=
  match s.cu.slot with
  | some { entry := e, scan := some sc } => if sc.left then findsGone e sc s else f e sc s
  | _ => s

/-- SCAN_STEP: a scan reads its next index entry or record place (R102, R104). -/
def execScanStep (s : State) : Host.Outcome State Fault Refusal :=
  .next (withScan (fun e sc s => if (s.cu.cursors[sc.cursor]).backward then stepBackward e sc s else stepForward e sc s) s)

/-- TAIL_TEST: a forward scan takes the tail test (R103). -/
def execTailTest (s : State) : Host.Outcome State Fault Refusal :=
  .next (withScan (fun e sc s => if (s.cu.cursors[sc.cursor]).backward then s else tailTest e sc s) s)

/-! ## Commit notices (R114) -/

/-- One PARKED cursor takes a commit notice at or above its position (R114). -/
def parkedNotice (n : Notice) (c : Fin 4) (s : State) : State :=
  let x := s.cu.cursors[c]
  if x.state = .parked ∧ x.position ≤ n.seq then
    if x.desc.acceptsNotice n then
      let s := countDelivered c (setWindow c (windowImage s.mem n.seg n.unit) s)
      let s := onCursor c (fun x => { x.unparked with position := n.seq + 1 }) s
      match x.fetchTag with
      | some tag => post { tag := tag, result := .found, lost := x.fetchLost, limited := false,
                           fields := foundFields n.seq n.cls n.len n.stamp } s
      | none => s
    else onCursor c (fun x => { x with position := n.seq + 1 }) s
  else s

/-- CU_COMMIT_NOTICE: the CU takes the oldest commit notice; every parked cursor takes it, in rising cursor number
(log 16). A CU stopped by hold-up changes nothing (R64). -/
def execCuCommitNotice (s : State) : Host.Outcome State Fault Refusal :=
  .next (match s.cu.notices with
    | [] => s
    | n :: rest =>
      let s := s.onCu (fun u => { u with notices := rest })
      if s.cu.stopped then s else withFloor (fun s => (fins 4).foldl (fun s c => parkedNotice n c s) s) s)

/-! ## Reclaim notices (R121 to R123) -/

/-- A READY backward cursor takes a reclaim notice (R121). -/
def Cursor.takeReclaim (n : ReclaimNotice) (x : Cursor) : Cursor :=
  if x.state = .ready ∧ x.backward then
    if x.position < n.oldHead then x
    else if x.position < n.newHead then
      { x with pendingLoss := sat32 (x.pendingLoss + (x.position - n.oldHead + 1)), position := n.newHead - 1 }
    else { x with pendingLoss := sat32 (x.pendingLoss + (n.newHead - n.oldHead)) }
  else x

/-- The scan in flight takes a reclaim notice it has not learned of by reading (R109, R111, R122, R123). `inside` says that
the scan is in the segment reclaimed: a backward one with more to examine above it has nothing left below. A scan that ends
here ends before the new head that the notice names, so that a later notice finds its cursor below it (R121). -/
def scanReclaimed (n : ReclaimNotice) (e : Entry) (sc : Scan) (s : State) : State :=
  let inside : Bool := sc.left && sc.seg == n.seg
  if (s.cu.cursors[sc.cursor]).backward then
    match sc.kind with
    | .seekTime _ => if inside then atHead e sc (n.newHead - 1) s else s
    | .fetch | .count =>
      afterReclaims e (if inside then sc.atHeadOf s.js.head else sc) (n.loss sc.pos) (n.newHead - 1) s
  else if inside then overtakeForward e sc (n.seg + 1) n.newHead s
  else s

/-- RECLAIM_NOTICE: the CU takes the oldest reclaim notice (R121 to R123). It changes nothing for a cursor number whose scan
has learned of the reclamation by reading, also when that cursor has been closed and opened again since (log 34). -/
def execReclaimNotice (s : State) : Host.Outcome State Fault Refusal :=
  .next (match s.cu.reclaims with
    | [] => s
    | n :: rest =>
      let s := s.onCu (fun u => { u with reclaims := rest })
      if s.cu.stopped then s
      else
        let ready := s.onCu (fun u =>
          { u with cursors := Vector.ofFn (fun c => if n.seenBy.contains c then u.cursors[c] else (u.cursors[c]).takeReclaim n) })
        match s.cu.slot with
        | some { entry := e, scan := some sc } =>
          if n.seenBy.contains sc.cursor then ready else scanReclaimed n e sc ready
        | _ => ready)

/-! ## The follow timeout (R115) -/

/-- FOLLOW_TIMEOUT: the nth beat after the park has come, and a fetch still parked answers TIMEOUT (R115). -/
def execFollowTimeout (c : Fin 4) (s : State) : Host.Outcome State Fault Refusal :=
  .next (
    let x := s.cu.cursors[c]
    if x.state = .parked ∧ x.beatsLeft = some 0 then
      let s' := onCursor c Cursor.unparked s
      match x.fetchTag with
      | some tag => post (Response.plain tag .timeout (positionBytes x.position)) s'
      | none => s'
    else s)

end Sys2Proof.Machine
end

