-- ==== Sys2Proof/Machine/AppendUnit.lean ====
section
/-! DEFINITION. The Append Unit's command and happenings (chapter 3): APPEND, the arbiter's choice, the request for the
next segment, and the end of the write step. -/

namespace Sys2Proof.Machine

/-! ## APPEND (R47) -/

/-- The tests of an APPEND at dispatch (R47): none when it passes. -/
def appendTest (e : Entry) : Option Result :=
  if 232 < e.payload.length then some .badParam
  else if 15 < e.param 0 then some .badParam
  else if 12 ≤ e.param 0 then some .badClass
  else none

/-- The AU tests an APPEND dispatched to it (R47): one that fails is answered and takes no place, any other takes a free
host lane place and waits there. -/
def takeAppend (e : Entry) (s : State) : State :=
  match appendTest e with
  | some code => answer e code [] s
  | none => s.onAu (fun a => { a with hostLane := a.hostLane ++ [{ entry := e, state := .waiting }] })

/-- A host lane place is free (R45). -/
def laneFree (a : Au) : Bool := a.hostLane.length < 2

/-- The opcode of APPEND (R47). -/
def appendOpcode : Byte := 0x11

/-- APPEND (11h): the APPEND at the head of the command queue is dispatched to the AU, which has a free place, and tested in
that happening (R47, R164; log 25). -/
def execAppend (s : State) : Host.Outcome State Fault Refusal :=
  .next (match s.hp.commands with
    | e :: rest =>
      if e.opcode = appendOpcode ∧ laneFree s.au then takeAppend e (s.onHp (fun h => { h with commands := rest })) else s
    | [] => s)

/-! ## The arbiter (R49 to R53) -/

/-- The place in its burst of the first queued record (R49). -/
def Burst.firstQueued (b : Burst) : Option Nat := b.records.findIdx? BurstRecord.isQueued

/-- The record the capture lane offers: the first queued record of the slot verified earliest among those that hold
queued records (R49). -/
def captureOffer (p : Cp) : Option (Fin 2 × Nat) :=
  p.order.findSome? (fun i => (p.slots[i]).bind (fun b => b.firstQueued.map (fun k => (i, k))))

/-- The host lane waits (R48). -/
def hostWaits (a : Au) : Bool := a.hostLane.any (fun p => p.state == .waiting)

/-- Mark the first waiting place as in progress. -/
def takeFirstWaiting : List HostPlace → List HostPlace
  | [] => []
  | p :: rest => if p.state = .waiting then { p with state := .inProgress } :: rest else p :: takeFirstWaiting rest

/-- A record of a burst as the AU takes it (R3, R53). -/
def captureRecord (b : Burst) (r : BurstRecord) : Record :=
  { source := .capture, cls := r.cls, payload := r.payload, node := b.node.val, nodeSeq := r.nodeSeq, age := r.age,
    stamp := r.stamp, unset := r.unset }

/-- Set the resolution of record `k` of a burst. -/
def Burst.resolve (k : Nat) (res : Resolution) (b : Burst) : Burst :=
  { b with records := b.records.modify k (fun r => { r with res := res }) }

/-- The append of a taken record begins with its checks; a refusal at the checks ends it (R53, R60). -/
def beginAppend (data : Record) (origin : Origin) (s : State) : State :=
  settleRefusal (appendChecks (InProgress.take data origin) s)

/-- Take the front request of the system lane (R53). -/
def takeSystem (q : SysRequest) (s : State) : State :=
  beginAppend (Record.plain .system q.kind.cls q.payload) (.system q.kind)
    (s.onAu (fun a => { a with systemLane := a.systemLane.drop 1 }))

/-- Take the first waiting place of the host lane (R48, R53). -/
def takeHost (s : State) : State :=
  match s.au.hostLane.find? (fun p => p.state == .waiting) with
  | some p =>
    beginAppend (Record.plain .host (p.entry.param 0) p.entry.payload) (.host p.entry.tag)
      (s.onAu (fun a => { a with hostLane := takeFirstWaiting a.hostLane, lastServed := .host }))
  | none => s

/-- Take record `k` of slot `i` (R49, R53). -/
def takeCapture (i : Fin 2) (k : Nat) (s : State) : State :=
  match s.cp.slots[i] with
  | some b =>
    beginAppend (captureRecord b (b.records.getD k default)) (.capture i k)
      ((s.onCp (Cp.onSlot i (Burst.resolve k .inAppend))).onAu (fun a => { a with lastServed := .capture }))
  | none => s

/-- The arbiter's choice (R50): the system lane first, then the lane other than the one last served when both wait, then
the one that waits. -/
def arbiterChoice (s : State) : State :=
  if s.au.paused ∨ s.au.record.isSome then s
  else match s.au.systemLane with
    | q :: _ => takeSystem q s
    | [] =>
      match captureOffer s.cp with
      | none => if hostWaits s.au then takeHost s else s
      | some (i, k) => if hostWaits s.au ∧ s.au.lastServed = .capture then takeHost s else takeCapture i k s

/-- ARBITER_CHOICE. -/
def execArbiterChoice (s : State) : Host.Outcome State Fault Refusal := .next (arbiterChoice s)

/-! ## The next segment (R54) -/

/-- The JS takes the AU's request for the next segment for the record in progress (R54). -/
def nextSegmentRequest (r : InProgress) (s : State) : State :=
  let waits := setRecord (some { r with phase := .waitingClear })
  match (s.js.index[s.js.next]).state with
  | .prepared => openAndWrite r s
  | .clearing => waits s
  | .free => waits (prepare s)
  | .sealed =>
    match s.js.policy with
    | .stop => refuse .journalFull r s
    | .wrap => if nextHeld s then refuse .held r s else waits (prepare s)
  | .filling => s

/-- NEXT_SEGMENT_REQUEST. -/
def execNextSegmentRequest (s : State) : Host.Outcome State Fault Refusal :=
  .next (match s.au.record with
    | some r =>
      match r.phase with
      | .requesting => nextSegmentRequest r s
      | .waitingClear | .refused _ | .writing => s
    | none => s)

/-! ## The end of the write step (R57, R58) -/

/-- WRITE_STEP_END: the record in progress is committed, and its append ends (R57, R58). -/
def execWriteStepEnd (s : State) : Host.Outcome State Fault Refusal :=
  .next (match s.au.record with
    | some r =>
      match r.phase with
      | .writing => endAppend r.origin (commit r s)
      | .requesting | .waitingClear | .refused _ => s
    | none => s)

end Sys2Proof.Machine
end

