-- ==== Sys2Proof/Machine/CapturePort.lean ====
section
/-! DEFINITION. The Capture Port (chapter 7): the receiver, verification, the burst slots and acknowledges, the AU's
notices, and the capture commands. -/

namespace Sys2Proof.Machine

/-! ## Burst slots and acknowledges (R130, R144, R146, R148) -/

/-- A record is resolved in every resolution except queued and in append (R144); one not yet verified is not. -/
def Resolution.isResolved : Resolution → Bool
  | .received | .queued | .inAppend => false
  | .badCheck | .refused | .duplicate | .committed | .auRefused | .dropped => true

/-- Every record of a verified burst is resolved. -/
def Burst.allResolved (b : Burst) : Bool := b.verified && b.records.all (fun r => r.res.isResolved)

/-- The slot becomes free (R144). -/
def Cp.freeSlot (i : Fin 2) (p : Cp) : Cp :=
  { p with slots := vmod p.slots i (fun _ => none), order := p.order.filter (· != i) }

/-- Set the state of the acknowledge of slot `i`. -/
def Cp.setAck (i : Fin 2) (a : AckState) (p : Cp) : Cp := p.onSlot i (fun b => { b with ack := a, beatsLeft := none })

/-- The slot becomes free when all its records are resolved and its acknowledge is sent or dropped (R144). -/
def Cp.settleSlot (i : Fin 2) (p : Cp) : Cp :=
  match p.slots[i] with
  | some b => if b.allResolved && (b.ack == .sent || b.ack == .dropped) then p.freeSlot i else p
  | none => p

/-- An acknowledge of slot `i` is dropped while the receiver is DISABLED (R152). -/
def Cp.dropAck (i : Fin 2) (p : Cp) : Cp :=
  let p := p.setAck i .dropped
  Cp.settleSlot i { p with acksDropped := sat16 (p.acksDropped + 1) }

/-- The acknowledge of slot `i` falls due: it joins the pending queue, or is dropped while the receiver is DISABLED
(R146). -/
def Cp.fallDue (i : Fin 2) (p : Cp) : Cp :=
  if p.receiver = .disabled then p.dropAck i
  else
    let p := p.setAck i .due
    { p with queue := p.queue ++ [.slot i] }

/-- A record of slot `i` has been resolved: with all of them resolved, an acknowledge not yet due falls due, and a slot
whose acknowledge was sent or dropped becomes free (R145, R149). -/
def Cp.afterResolution (i : Fin 2) (p : Cp) : Cp :=
  match p.slots[i] with
  | some b =>
    if b.allResolved then
      match b.ack with
      | .notDue => p.fallDue i
      | .due => p
      | .sent | .dropped => p.freeSlot i
    else p
  | none => p

/-- The receiver enters ACKING when it stands in IDLE or WAIT_IDLE with the pending queue not empty (R130, R131). -/
def Cp.enterAcking (p : Cp) : Cp :=
  if (p.receiver = .idle ∨ p.receiver = .waitIdle) ∧ p.queue ≠ [] then
    { p with receiver := .acking, resume := p.receiver }
  else p

/-- The receiver enters WAIT_IDLE with no burst in reception, and ACKING from there when an acknowledge is due. -/
def Cp.toWaitIdle (p : Cp) : Cp := Cp.enterAcking { p with reception := none, receiver := .waitIdle }

/-- The burst in reception has ended by its end marker: the receiver becomes IDLE, and ACKING from there when an
acknowledge is due (R137). -/
def Cp.toIdle (p : Cp) : Cp := Cp.enterAcking { p with reception := none, receiver := .idle }

/-! ## Framing failures (R138) -/

/-- A framing failure: the burst is thrown away, the framing counter grows, CAPTURE fires, the receiver enters
WAIT_IDLE (R138). -/
def framingFailure (s : State) : State :=
  latch .capture (s.onCp (fun p =>
    let p := p.dropReception
    Cp.toWaitIdle { p with framing := sat16 (p.framing + 1) }))

/-! ## The header (R135, R136) -/

/-- The preamble byte of a burst (R133). -/
def preambleByte : Byte := 0xC9

/-- The end marker of a burst (R133). -/
def endMarkerByte : Byte := 0x9C

/-- A reception that has taken its preamble alone. -/
def Reception.fresh : Reception :=
  { header := [], node := 0, num := 0, count := 0, slot := none, complete := 0, current := [] }

/-- The reception that a good header gives (R136). -/
def Reception.ofHeader (h : List Byte) (slot : Option (Fin 2)) : Reception :=
  { header := h, node := Fin.ofNat 8 (rd8 h 0), num := h.getD 1 0, count := rd8 h 2, slot := slot, complete := 0,
    current := [] }

/-- A header is good: its CRC-8 is right, the node address is at most 7 and the record count at most 6 (R136). -/
def headerGood (h : List Byte) : Bool := crc8 (h.take 3) == h.getD 3 0 && rd8 h 0 ≤ 7 && rd8 h 2 ≤ 6

/-- The free slot that a good header claims: slot 0 when both are free (R136). -/
def Cp.freeIndex (p : Cp) : Option (Fin 2) :=
  if (p.slots[0]).isNone then some 0 else if (p.slots[1]).isNone then some 1 else none

/-- A slot just claimed by this header (R136, R144). -/
def Burst.claimed (r : Reception) : Burst :=
  { node := r.node, num := r.num, count := r.count, records := [], verified := false,
    arrival := { seconds := 0, ticks := 0 }, windowLen := 0, beatsLeft := none, ack := .notDue }

/-- The four header bytes are complete (R136). -/
def Cp.headerDone (h : List Byte) (p : Cp) : Cp :=
  if headerGood h then
    if rd8 h 2 = 0 then { p with reception := some (Reception.ofHeader h none), receiver := .trailer }
    else match p.freeIndex with
      | some i =>
        { p with reception := some (Reception.ofHeader h (some i)), receiver := .records,
                 slots := vmod p.slots i (fun _ => some (Burst.claimed (Reception.ofHeader h (some i)))) }
      | none => { p with reception := some (Reception.ofHeader h none), receiver := .discard }
  else Cp.toWaitIdle { p with badHeaders := sat16 (p.badHeaders + 1) }

/-- A good character in HEADER (R136). -/
def Cp.headerByte (c : Byte) (p : Cp) : Cp :=
  match p.reception with
  | some r =>
    let h := r.header ++ [c]
    if h.length < 4 then { p with reception := some { r with header := h } } else p.headerDone h
  | none => p

/-! ## The records (R137, R139) -/

/-- The length in bytes of the record whose bytes begin with `l`: 7 + L (R133). -/
def recordLength (l : List Byte) : Nat := 7 + rd8 l 0

/-- A record complete in reception, its fields as sent (R133, R137). -/
def BurstRecord.ofBytes (l : List Byte) : BurstRecord :=
  let len := rd8 l 0
  { cls := rd8 l 1, nodeSeq := rd8 l 2, age := rd16 l 3, payload := (l.drop 5).take len, crc := rd16 l (5 + len),
    stamp := { seconds := 0, ticks := 0 }, unset := false, res := .received }

/-- A record whose bytes are `l` is complete: it lies in the claimed slot, and the count of complete records grows. -/
def Cp.recordComplete (r : Reception) (l : List Byte) (p : Cp) : Cp :=
  let r' : Reception := { r with complete := r.complete + 1, current := [] }
  let p := { p with reception := some r' }
  match r.slot with
  | some i =>
    let p := p.onSlot i (fun b => { b with records := b.records ++ [BurstRecord.ofBytes l] })
    if r'.complete = r.count then { p with receiver := .trailer } else p
  | none => p

/-- A good character of a record, in RECORDS or DISCARD: a payload length above 232 is a framing failure (R137 to
R139). -/
def recordByte (c : Byte) (r : Reception) (s : State) : State :=
  let l := r.current ++ [c]
  if 232 < rd8 l 0 then framingFailure s
  else if l.length < recordLength l then s.onCp (fun p => { p with reception := some { r with current := l } })
  else s.onCp (Cp.recordComplete r l)

/-! ## Verification (R141 to R143) -/

/-- The check of a record is right: its CRC-16 over the 5 + L bytes before it (R133, R200). -/
def BurstRecord.checkOk (r : BurstRecord) : Bool :=
  (crc16 ([byte r.payload.length, byte r.cls, byte r.nodeSeq] ++ be16 r.age ++ r.payload)).toNat == r.crc

/-- A node sequence is ahead of last_seq (R142). -/
def ahead (last : Option Nat) (s : Nat) : Bool :=
  match last with
  | none => true
  | some l => let d := (s + 256 - l) % 256; 1 ≤ d && d ≤ 127

/-- A class is in the node's permitted class set; classes 12-255 never are (R141 test 2). -/
def Node.permits (n : Node) (cls : Nat) : Bool := cls < 12 && n.classes.getLsbD cls

/-- One record resolved against the node's entry as it stands (R141, R143). -/
def verifyRecord (arrival : Stamp) (unset : Bool) (n : Node) (r : BurstRecord) : Node × BurstRecord :=
  if !r.checkOk then ({ n with badChecks := sat16 (n.badChecks + 1) }, { r with res := .badCheck })
  else if !(n.enabled && n.permits r.cls) then ({ n with refused := sat16 (n.refused + 1) }, { r with res := .refused })
  else if !(ahead n.lastSeq r.nodeSeq) then
    ({ n with duplicates := sat16 (n.duplicates + 1) }, { r with res := .duplicate })
  else
    ({ n with lastSeq := some r.nodeSeq, pending := n.pending + 1 },
      { r with res := .queued, stamp := arrival.lessAge r.age, unset := unset })

/-- The records of a burst resolved in record order (R141). -/
def verifyRecords (arrival : Stamp) (unset : Bool) : Node → List BurstRecord → Node × List BurstRecord
  | n, [] => (n, [])
  | n, r :: rest =>
    let one := verifyRecord arrival unset n r
    let more := verifyRecords arrival unset one.1 rest
    (more.1, one.2 :: more.2)

/-- The node's bursts counter grows by one. -/
def Node.countBurst (n : Node) : Node := { n with bursts := sat16 (n.bursts + 1) }

/-- Verification of the burst in slot `i` (R141): the window begins, and the acknowledge falls due at once when no
record was taken (R146). -/
def Cp.verify (arrival : Stamp) (unset : Bool) (i : Fin 2) (p : Cp) : Cp :=
  match p.slots[i] with
  | some b =>
    let v := verifyRecords arrival unset (p.nodes[b.node]).countBurst b.records
    let p := p.onNode b.node (fun _ => v.1)
    let p := p.onSlot i (fun b =>
      { b with records := v.2, verified := true, arrival := arrival, windowLen := p.window,
               beatsLeft := some p.window })
    Cp.afterResolution i { p with order := p.order ++ [i] }
  | none => p

/-! ## The end marker (R137, R139, R140) -/

/-- A probe is answered (R140). -/
def Cp.probeDone (r : Reception) (p : Cp) : Cp :=
  let p := p.onNode r.node Node.countBurst
  { p with queue := p.queue ++ [.direct r.node r.num []] }

/-- The result code of every record of a DISCARD burst: REFUSED from a disabled node, NO_ROOM otherwise (R139). -/
def discardCode (n : Node) : Byte := if n.enabled then 5 else 4

/-- The counters of a node after a DISCARD burst of `k` records (R139). -/
def Node.countDiscard (k : Nat) (n : Node) : Node :=
  let n := n.countBurst
  if n.enabled then { n with noRoom := sat16 (n.noRoom + k) } else { n with refused := sat16 (n.refused + k) }

/-- A burst received in DISCARD is answered (R139). -/
def Cp.discardDone (r : Reception) (p : Cp) : Cp :=
  let codes := List.replicate r.count (discardCode p.nodes[r.node])
  let p := p.onNode r.node (Node.countDiscard r.count)
  { p with noSlot := sat16 (p.noSlot + 1), queue := p.queue ++ [.direct r.node r.num codes] }

/-- The end marker of the burst in reception (R137): a burst with a slot is verified against the time the TB shows, a
probe and a DISCARD burst are answered. -/
def endMarker (r : Reception) (s : State) : State :=
  let arrival := s.tb.now
  let unset := !s.tb.isSet
  match r.slot with
  | some i => s.onCp (fun p => (p.verify arrival unset i).toIdle)
  | none =>
    if r.count = 0 then s.onCp (fun p => (p.probeDone r).toIdle)
    else latch .capture (s.onCp (fun p => (p.discardDone r).toIdle))

/-! ## One character (R135 to R139) -/

/-- A character in TRAILER, or in DISCARD after the last record: the end marker, or a wrong one (R137 to R139). -/
def trailerByte (c : Byte) (good : Bool) (s : State) : State :=
  match s.cp.reception with
  | some r => if good ∧ c = endMarkerByte then endMarker r s else framingFailure s
  | none => s

/-- A character in RECORDS, or in DISCARD before the last record is complete. -/
def recordsByte (c : Byte) (good : Bool) (s : State) : State :=
  match s.cp.reception with
  | some r => if good then recordByte c r s else framingFailure s
  | none => s

/-- The receiver takes a character (R129, R135 to R139). In WAIT_IDLE it starts the idle measurement afresh, which is not
state of the model (log 11); DISABLED and ACKING ignore the line. -/
def receive (c : Byte) (good : Bool) (s : State) : State :=
  match s.cp.receiver with
  | .disabled | .acking | .waitIdle => s
  | .idle =>
    if good ∧ c = preambleByte then
      s.onCp (fun p => { p with reception := some Reception.fresh, receiver := .header })
    else s.onCp Cp.toWaitIdle
  | .header => if good then s.onCp (Cp.headerByte c) else framingFailure s
  | .records => recordsByte c good s
  | .trailer => trailerByte c good s
  | .discard =>
    match s.cp.reception with
    | some r => if r.complete < r.count then recordsByte c good s else trailerByte c good s
    | none => s

/-- CHARACTER_RECEIVED. -/
def execCharacterReceived (c : Byte) (good : Bool) (s : State) : Host.Outcome State Fault Refusal :=
  .next (receive c good s)

/-- The receiver is inside a burst (7.4). -/
def Receiver.insideBurst : Receiver → Bool
  | .header | .records | .trailer | .discard => true
  | .disabled | .waitIdle | .idle | .acking => false

/-- GAP_TIMEOUT: a gap between two characters of a burst is longer than the gap timeout (R138). -/
def execGapTimeout (s : State) : Host.Outcome State Fault Refusal :=
  .next (if s.cp.receiver.insideBurst then framingFailure s else s)

/-- IDLE_TIME_ELAPSED: the line has been idle for the gap timeout, and WAIT_IDLE becomes IDLE (R135). -/
def execIdleTimeElapsed (s : State) : Host.Outcome State Fault Refusal :=
  .next (if s.cp.receiver = .waitIdle then s.onCp (fun p => Cp.enterAcking { p with receiver := .idle }) else s)

/-! ## Acknowledges (R146 to R148) -/

/-- The acknowledge window of this burst has ended, and its acknowledge is not due, sent or dropped (R146). -/
def Burst.windowOver (b : Burst) : Bool := b.verified && b.beatsLeft == some 0 && b.ack == .notDue

/-- ACKNOWLEDGE_WINDOW_END: the acknowledge of slot `i` falls due (R146). -/
def execAcknowledgeWindowEnd (i : Fin 2) (s : State) : Host.Outcome State Fault Refusal :=
  .next (match s.cp.slots[i] with
    | some b => if b.windowOver then s.onCp (fun p => (p.fallDue i).enterAcking) else s
    | none => s)

/-- The result code that reports a resolution (R134, R147). -/
def Resolution.sent : Resolution → Byte
  | .committed => 0
  | .queued | .inAppend | .received => 1
  | .duplicate => 2
  | .badCheck => 3
  | .refused => 4
  | .auRefused | .dropped => 5

/-- The bytes of an acknowledge frame (R134, 10.4). -/
def frameBytes (node : Nat) (num : Byte) (codes : List Byte) (watermark : Option Nat) : List Byte :=
  let l := [0x6A, byte node, num, byte codes.length] ++ codes
    ++ [byte watermark.isSome.toNat, byte (watermark.getD 0)]
  l ++ [crc8 l]

/-- The frame of an acknowledge, its results and watermark as they stand (R147). -/
def Cp.frameOf (a : Ack) (p : Cp) : Option Frame :=
  match a with
  | .slot i => (p.slots[i]).map (fun b =>
      { bytes := frameBytes b.node.val b.num (b.records.map (fun r => r.res.sent)) (p.nodes[b.node]).committedSeq,
        slot := some i })
  | .direct node num codes => some { bytes := frameBytes node.val num codes (p.nodes[node]).committedSeq, slot := none }

/-- ACK_FRAME_START: in ACKING, the frame of the acknowledge at the front of the queue begins (R147, R148). -/
def execAckFrameStart (s : State) : Host.Outcome State Fault Refusal :=
  .next (if s.cp.receiver = .acking ∧ s.cp.frame.isNone then
      match s.cp.queue with
      | a :: _ => s.onCp (fun p => { p with frame := p.frameOf a })
      | [] => s
    else s)

/-! ## CAPTURE_SET (R152) -/

/-- An acknowledge in the pending queue is dropped (R152). -/
def Cp.dropQueued (a : Ack) (p : Cp) : Cp :=
  match a with
  | .slot i => p.dropAck i
  | .direct _ _ _ => { p with acksDropped := sat16 (p.acksDropped + 1) }

/-- The four settings of a CAPTURE_SET applied in one happening (R152). -/
def Cp.applySet (e : Entry) (p : Cp) : Cp :=
  let p := { p.dropReception with enabled := e.param 0 == 1, rate := e.param 1, gap := e.param 2, window := e.param 3 }
  if e.param 0 = 1 then p.toWaitIdle
  else
    let p := { p with receiver := .disabled, reception := none }
    { p.queue.foldl (fun p a => p.dropQueued a) p with queue := [] }

/-- The settings are applied, the control block write is requested, and the command waits for it (R152). -/
def applyCaptureSet (e : Entry) (s : State) : State :=
  let w := carrier s
  requestCopy (s.onCp (fun p => { p.applySet e with slot := some { entry := e, phase := .writeWait w } }))

/-! ## The end of a frame (R148) -/

/-- The frame `f` has been sent: acks sent grows, and its slot may become free (R147, R148). -/
def Cp.frameSent (f : Frame) (p : Cp) : Cp :=
  let p := { p with frame := none, queue := p.queue.drop 1, acksSent := sat16 (p.acksSent + 1) }
  match f.slot with
  | some i => (p.setAck i .sent).settleSlot i
  | none => p

/-- After a frame: the CAPTURE_SET that waited for its end is applied; otherwise ACKING ends with the queue empty
(R130, R152). -/
def afterFrame (s : State) : State :=
  match s.cp.slot with
  | some { entry := e, phase := .frameWait } => applyCaptureSet e s
  | _ => if s.cp.queue = [] then s.onCp (fun p => { p with receiver := p.resume }) else s

/-- ACK_FRAME_END: the last stop bit of the frame is sent (R148). -/
def execAckFrameEnd (s : State) : Host.Outcome State Fault Refusal :=
  .next (match s.cp.frame with
    | some f => if s.cp.receiver = .acking then afterFrame (s.onCp (Cp.frameSent f)) else s
    | none => s)

/-! ## The AU's notices (R145, R149) -/

/-- A record of this node, with node sequence `q`, is committed (R145). A commit into the journal before a FORMAT moves no
watermark (R155; log 18). -/
def Node.committed (q : Nat) (oldJournal : Bool) (n : Node) : Node :=
  { n with committedSeq := if oldJournal then n.committedSeq else some q
           stored := sat16 (n.stored + 1), pending := n.pending - 1 }

/-- The CP takes a commit notice (R145). -/
def Cp.recordCommitted (n : CpNotice) (p : Cp) : Cp :=
  match p.slots[n.slot] with
  | some b =>
    let p := p.onNode b.node (Node.committed n.notice.nodeSeq n.oldJournal)
    ((p.onSlot n.slot (Burst.resolve n.place .committed)).afterResolution n.slot).enterAcking
  | none => p

/-- CP_COMMIT_NOTICE: the CP takes the oldest commit notice; a stopped CP changes nothing (R145, R156). -/
def execCpCommitNotice (s : State) : Host.Outcome State Fault Refusal :=
  .next (match s.cp.notices with
    | [] => s
    | n :: rest =>
      let s := s.onCp (fun p => { p with notices := rest })
      if s.cp.stopped then s else s.onCp (Cp.recordCommitted n))

/-- The queued records that a refusal drops: those of the node, in either slot (R149 step 2). -/
def droppedWith (node : Fin 8) (o : Option Burst) : Nat :=
  match o with
  | some b => if b.node = node then (b.records.filter BurstRecord.isQueued).length else 0
  | none => 0

/-- Drop the queued records of a node's burst. -/
def Burst.dropOf (node : Fin 8) (b : Burst) : Burst := if b.node = node then b.dropQueued else b

/-- The AU's refusal of record `k` of slot `i` (R149 steps 1 to 4 and 6). -/
def Cp.recordRefused (i : Fin 2) (k : Nat) (p : Cp) : Cp :=
  match p.slots[i] with
  | some b =>
    let n := 1 + droppedWith b.node p.slots[0] + droppedWith b.node p.slots[1]
    let p := p.onSlot i (Burst.resolve k .auRefused)
    let p := { p with slots := p.slots.map (Option.map (Burst.dropOf b.node)) }
    let p := p.onNode b.node (fun x =>
      { x with lost := sat16 (x.lost + n), pending := x.pending - n, lastSeq := x.committedSeq })
    Cp.enterAcking (p.order.foldl (fun p j => p.afterResolution j) p)
  | none => p

/-- The append of a refused capture record ends, its notice taken (R61). -/
def endRefused (s : State) : State :=
  match s.au.record with
  | some r => match r.phase with
    | .refused _ => endAppend r.origin s
    | .requesting | .waitingClear | .writing => s
  | none => s

/-- REFUSAL_NOTICE: the CP takes the AU's refusal notice, after the commit notices sent before it (log 17), and the append
ends (R61, R149). A stopped CP changes nothing (R156). -/
def execRefusalNotice (s : State) : Host.Outcome State Fault Refusal :=
  .next (match s.cp.refusal with
    | some n =>
      if s.cp.notices = [] then
        let s := s.onCp (fun p => { p with refusal := none })
        endRefused (if s.cp.stopped then s else latch .capture (s.onCp (Cp.recordRefused n.slot n.place)))
      else s
    | none => s)

/-! ## The capture commands (R152 to R154) -/

/-- Carry out `f` on the command with this opcode that has been dispatched to the CP's slot and not yet taken. -/
def withCp (opcode : Nat) (f : Entry → State → State) (s : State) : State :=
  match s.cp.slot with
  | some { entry := e, phase := .dispatched } => if e.opcode.toNat = opcode then f e s else s
  | _ => s

/-- The CP answers the command in its slot, which frees the slot. -/
def answerCp (e : Entry) (r : Result) (fields : List Byte) (s : State) : State :=
  answer e r fields (s.onCp (fun p => { p with slot := none }))

/-- CAPTURE_SET (60h), R152. -/
def captureSet (e : Entry) (s : State) : State :=
  if 1 < e.param 0 ∨ 3 < e.param 1 ∨ e.param 2 < 2 ∨ e.param 3 = 0 ∨ e.payload ≠ [] then answerCp e .badParam [] s
  else if s.cp.receiver = .acking ∧ s.cp.frame.isSome then
    s.onCp (fun p => { p with slot := some { entry := e, phase := .frameWait } })
  else applyCaptureSet e s

/-- The node an entry names in parameter byte 0, when the number is at most 7. -/
def Entry.node (e : Entry) : Option (Fin 8) := if h : e.param 0 < 8 then some ⟨e.param 0, h⟩ else none

/-- The node entry after NODE_SET (R153). -/
def Node.set (enabled : Bool) (classes : BitVec 16) (forget : Bool) (n : Node) : Node :=
  { n with enabled := enabled, classes := classes, lastSeq := if forget then none else n.lastSeq }

/-- NODE_SET (61h), R153. -/
def nodeSet (e : Entry) (s : State) : State :=
  match e.node with
  | none => answerCp e .badParam [] s
  | some n =>
    if 1 < e.param 1 ∨ 4095 < e.param16 2 ∨ 1 < e.param 4 ∨ e.payload ≠ [] then answerCp e .badParam [] s
    else
      let w := carrier s
      let s := s.onCp (Cp.onNode n (Node.set (e.param 1 == 1) (BitVec.ofNat 16 (e.param16 2)) (e.param 4 == 1)))
      requestCopy (s.onCp (fun p => { p with slot := some { entry := e, phase := .writeWait w } }))

/-- The fields of one part of a NODE_READ response for a node (R154, 10). -/
def Node.fields (n : Node) (part : Nat) : List Byte :=
  if part = 0 then
    [byte n.enabled.toNat] ++ be16 n.classes.toNat
      ++ [byte (flagBits [n.lastSeq.isSome, n.committedSeq.isSome]), byte (n.lastSeq.getD 0),
        byte (n.committedSeq.getD 0), byte n.pending] ++ be16 n.bursts
  else
    be16 n.stored ++ be16 n.duplicates ++ be16 n.badChecks ++ be16 n.refused ++ be16 n.noRoom ++ be16 n.lost

/-- The counters of one part of a node entry cleared (R154). -/
def Node.cleared (n : Node) (part : Nat) : Node :=
  if part = 0 then { n with bursts := 0 }
  else { n with stored := 0, duplicates := 0, badChecks := 0, refused := 0, noRoom := 0, lost := 0 }

/-- The fields of one part of a NODE_READ response for the port (R154, 10). -/
def Cp.fields (p : Cp) (part : Nat) : List Byte :=
  if part = 0 then
    [byte p.receiver.code, byte p.enabled.toNat, byte p.rate, byte p.gap, byte p.window,
      byte (p.slots.toList.filter Option.isSome).length, byte p.queue.length]
  else
    be16 p.framing ++ be16 p.badHeaders ++ be16 p.noSlot ++ be16 p.acksSent ++ be16 p.acksDropped

/-- The counters of one part of the port cleared (R154). -/
def Cp.cleared (part : Nat) (p : Cp) : Cp :=
  if part = 0 then p else { p with framing := 0, badHeaders := 0, noSlot := 0, acksSent := 0, acksDropped := 0 }

/-- NODE_READ (62h), R154. -/
def nodeRead (e : Entry) (s : State) : State :=
  if 8 < e.param 0 ∨ 1 < e.param 1 ∨ 1 < e.param 2 ∨ e.payload ≠ [] then answerCp e .badParam [] s
  else match e.node with
    | some n =>
      answerCp e .done ((s.cp.nodes[n]).fields (e.param 1))
        (if e.param 2 = 1 then s.onCp (Cp.onNode n (fun x => x.cleared (e.param 1))) else s)
    | none =>
      answerCp e .done (s.cp.fields (e.param 1))
        (if e.param 2 = 1 then s.onCp (Cp.cleared (e.param 1)) else s)

/-- CAPTURE_SET. -/
def execCaptureSet (s : State) : Host.Outcome State Fault Refusal := .next (withCp 0x60 captureSet s)

/-- NODE_SET. -/
def execNodeSet (s : State) : Host.Outcome State Fault Refusal := .next (withCp 0x61 nodeSet s)

/-- NODE_READ. -/
def execNodeRead (s : State) : Host.Outcome State Fault Refusal := .next (withCp 0x62 nodeRead s)

end Sys2Proof.Machine
end

