-- ==== Sys2Proof/Machine/HostPort.lean ====
section
/-! DEFINITION. The Host Port (chapter 8): dispatch, and the transactions of the six ports. -/

namespace Sys2Proof.Machine

/-! ## Dispatch (R164, R165) -/

/-- The unit has a free slot, or a free host lane place (R164). -/
def unitFree (u : CmdUnit) (s : State) : Bool :=
  match u with
  | .au => laneFree s.au
  | .js => s.js.slot.isNone
  | .cu => s.cu.slot.isNone
  | .tb => s.tb.slot.isNone
  | .wu => s.wu.slot.isNone
  | .cp => s.cp.slot.isNone

/-- The entry is placed in the unit's slot, and the unit takes it in a happening of its own; an APPEND is tested by the AU at
once (R47). -/
def placeIn (u : CmdUnit) (e : Entry) (s : State) : State :=
  match u with
  | .au => takeAppend e s
  | .js => s.onJs (fun j => { j with slot := some { entry := e, phase := .dispatched } })
  | .cu => s.onCu (fun c => { c with slot := some { entry := e, scan := none } })
  | .tb => s.onTb (fun t => { t with slot := some { entry := e, old := none } })
  | .wu => s.onWu (fun w => { w with slot := some e })
  | .cp => s.onCp (fun p => { p with slot := some { entry := e, phase := .dispatched } })

/-- DISPATCH: the head of the command queue goes to its unit's free slot, or waits; the dispatcher answers an opcode that
no unit carries out (R164, R165). -/
def execDispatch (s : State) : Host.Outcome State Fault Refusal :=
  .next (match s.hp.commands with
    | [] => s
    | e :: rest =>
      let taken := s.onHp (fun h => { h with commands := rest })
      match unitOf e.opcode with
      | none => answer e .unknownCommand [] taken
      | some u => if unitFree u s then placeIn u e taken else s)

/-! ## Transactions (R157 to R159) -/

/-- A window change held for a WIN transaction takes effect (R171). -/
def Cursor.showHeld (c : Cursor) : Cursor :=
  match c.heldWindow with
  | some w => { c with window := w, heldWindow := none }
  | none => c

/-- The open transaction ends, and held window changes take effect (R171). -/
def closeTx (s : State) : State :=
  (s.onHp (fun h => { h with tx := none })).onCu (fun u => { u with cursors := u.cursors.map Cursor.showHeld })

/-- Carry out a happening of the bus, in the supply states in which the HP serves transactions (R157). -/
def onBus (f : State → State) (s : State) : State := if s.pc.supply.powered then f s else s

/-- The status byte that the open transaction took at the fall of CS#. -/
def txStatus (s : State) : Byte :=
  match s.hp.tx with
  | some { status := b, port := .statusOnly } => b
  | _ => statusByteOf s

/-- The level of CS# (R202); outside the supply states in which it is sampled it has no effect. -/
def setCs (low : Bool) (s : State) : State := s.onPc (fun p => { p with csLow := low })

/-- The port byte has ended and its port has made its choice; an earlier transaction has ended by then. -/
def openPort (p : TxPort) (s : State) : State :=
  setCs true ((closeTx s).onHp (fun h => { h with tx := some { status := txStatus s, port := p } }))

/-- The port byte of CMD, ACK or MASK and the whole bytes after it have been taken (R157, R160). -/
def takeBytes (p : Port) (bytes : List Byte) (s : State) : State :=
  s.onHp (fun h => { h with tx := some { status := txStatus s, port := .taking p bytes } })

/-- The rise of CS#: the transaction ends with the effect `f` on the HP (R157). -/
def rise (f : Hp → Hp) (s : State) : State := setCs false (onBus (fun s => (closeTx s).onHp f) s)

/-- STATUS_BYTE: the fall of CS# (R158). -/
def execStatusByte (s : State) : Host.Outcome State Fault Refusal :=
  .next (setCs true (onBus (fun s =>
    (closeTx s).onHp (fun h => { h with tx := some { status := statusByteOf s, port := .statusOnly } })) s))

/-! ## CMD, ACK and MASK: their effects at the rise of CS# (R157, R161 to R163, R173 to R175) -/

/-- The first test of R162 that fails, none when the entry is accepted. -/
def Hp.judge (bytes : List Byte) (h : Hp) : Option Reject :=
  let e := parseEntry bytes
  if !(lengthOk bytes) then some .length
  else if h.offline then some .notReady
  else if 8 ≤ h.outstanding then some .full
  else if e.tag = 0xFF ∨ e.tag ∈ h.tags then some .tag
  else none

/-- The entry is accepted or rejected (R162, R163). -/
def Hp.cmd (bytes : List Byte) (h : Hp) : Hp :=
  match h.judge bytes with
  | some r => { h with reject := r, lastAccepted := false }
  | none =>
    { h with commands := h.commands ++ [parseEntry bytes], tags := h.tags ++ [(parseEntry bytes).tag],
             outstanding := h.outstanding + 1, lastAccepted := true }

/-- The event flags named in the second byte of the set are cleared; member 0 has no effect (R173). -/
def Hp.ack (bytes : List Byte) (h : Hp) : Hp :=
  if 2 ≤ bytes.length ∧ ¬ h.offline then { h with events := h.events &&& ~~~(bytes.getD 1 0 &&& 0xFE) } else h

/-- The second byte of the set replaces the mask (R174). -/
def Hp.setMask (bytes : List Byte) (h : Hp) : Hp :=
  if 2 ≤ bytes.length ∧ ¬ h.offline then { h with mask := bytes.getD 1 0 } else h

/-- What the rise of CS# does at the HP, by the port of the open transaction and the bytes it has taken (R157). -/
def Hp.riseEffect (h : Hp) : Hp → Hp :=
  match h.tx with
  | some { status := _, port := .taking .cmd bytes } => Hp.cmd bytes
  | some { status := _, port := .taking .ack bytes } => Hp.ack bytes
  | some { status := _, port := .taking .mask bytes } => Hp.setMask bytes
  | _ => id

/-- A transaction that has taken all its bytes ends (R157). -/
def finish (p : Port) (bytes : List Byte) (s : State) : State :=
  let t := onBus (takeBytes p bytes) s
  rise t.hp.riseEffect t

/-- CMD: the rise of CS# that ends a CMD transaction (R162). -/
def execCmd (bytes : List Byte) (s : State) : Host.Outcome State Fault Refusal := .next (finish .cmd bytes s)

/-! ## RSP (R167) -/

/-- RSP: the front entry is chosen, or the empty entry (R167). -/
def execRsp (s : State) : Host.Outcome State Fault Refusal :=
  .next (onBus (fun s => openPort (.rsp s.hp.responses.head?) s) s)

/-- The entry chosen by the open RSP transaction. -/
def Hp.chosen (h : Hp) : Option Response :=
  match h.tx with
  | some t => match t.port with
    | .rsp c => c
    | .statusOnly | .unknown | .taking _ _ | .win _ _ | .sts _ => none
  | none => none

/-- The front entry is popped: its tag leaves the outstanding tags and the outstanding count falls (R163, R167). -/
def Hp.pop (r : Response) (h : Hp) : Hp :=
  { h with responses := h.responses.drop 1, tags := h.tags.erase r.tag, outstanding := h.outstanding - 1 }

/-- What the end of the open RSP transaction does at the HP: with 16 bytes clocked the chosen front entry is popped, unless
it has gone (R167, R176). -/
def Hp.popEffect (clocked : Nat) (h : Hp) : Hp → Hp :=
  match h.chosen with
  | some r => if 16 ≤ clocked ∧ h.responses.head? = some r then Hp.pop r else id
  | none => id

/-- RSP_POP: the rise of CS# that ends an RSP transaction (R167). -/
def execRspPop (clocked : Nat) (s : State) : Host.Outcome State Fault Refusal := .next (rise (s.hp.popEffect clocked) s)

/-! ## WIN (R170, R171) -/

/-- The cursor that a cursor number byte names, when it is at most 3. -/
def cursorOfByte (b : Byte) : Option (Fin 4) := if h : b.toNat < 4 then some ⟨b.toNat, h⟩ else none

/-- WIN: the end of the cursor number byte, with the offset byte after it; while OFFLINE no window is opened (R170,
R175). -/
def execWin (cursor offset : Byte) (s : State) : Host.Outcome State Fault Refusal :=
  .next (onBus (fun s =>
    openPort (.win (if s.hp.offline then none else cursorOfByte cursor) offset.toNat) s) s)

/-- WIN_END: the rise of CS# that ends a WIN transaction, or any other open one without an effect of its own (R171;
log 26). -/
def execWinEnd (s : State) : Host.Outcome State Fault Refusal := .next (rise id s)

/-! ## STS (R172) -/

/-- STS: the status snapshot is taken (R172). -/
def execSts (s : State) : Host.Outcome State Fault Refusal := .next (onBus (fun s => openPort (.sts (snapshotOf s)) s) s)

/-- ACK: the rise of CS# that ends an ACK transaction (R173, R175). -/
def execAck (bytes : List Byte) (s : State) : Host.Outcome State Fault Refusal := .next (finish .ack bytes s)

/-- MASK: the rise of CS# that ends a MASK transaction (R174, R175). -/
def execMask (bytes : List Byte) (s : State) : Host.Outcome State Fault Refusal := .next (finish .mask bytes s)

/-! ## Unknown ports (R159) -/

/-- UNKNOWN_PORT: the end of a port byte that names no port (R159). -/
def execUnknownPort (port : Byte) (s : State) : Host.Outcome State Fault Refusal :=
  .next (if (portOf port).isSome then s
    else onBus (fun s =>
      (openPort .unknown s).onHp (fun h => { h with unknownPorts := min 255 (h.unknownPorts + 1) })) s)

end Sys2Proof.Machine
end

