-- ==== Sys2Proof/Machine/Recovery.lean ====
section
/-! DEFINITION. Recovery (R188 to R195). The repairs of the scan are one list of byte writes in the order they are made,
so that an abrupt stop can keep the first of them (R187, R195). -/

namespace Sys2Proof.Machine

/-! ## Headers (R189) -/

/-- What recovery makes of a segment header: its reading FREE, FILLING or SEALED, its first sequence number, and the
rewrite of a bad header. -/
structure HeaderReading where
  reading : SegState
  first : Nat
  repair : List Host.Cell
  deriving DecidableEq, Repr, Inhabited

/-- The stored state a segment header's first byte shows, none for another code (R19). -/
def storedState (b : Byte) : Option SegState :=
  if b = 0x00 then some .free else if b = 0x55 then some .filling else if b = 0xAA then some .sealed else none

/-- The header check of a stored record is valid: the CRC-16 of header bytes 1-19 (R4). -/
def headerCheckOk (m : Memory) (g : Seg) (u : Nat) : Bool :=
  (crc16 (((placeHeader m g u).drop 1).take 19)).toNat == (stored m g u).headerCheck

/-- The payload check of a stored record is valid (R4). -/
def payloadCheckOk (m : Memory) (g : Seg) (u : Nat) : Bool :=
  (crc16 (m.bytes (unitAddr g u + 24) (stored m g u).len)).toNat == (stored m g u).payloadCheck

/-- A place holds a record: its state is OPEN, COMMITTED or VOID. -/
def holdsRecord (m : Memory) (g : Seg) (u : Nat) : Bool :=
  match placeState m g u with
  | .opened | .committed | .void => true
  | .free | .other => false

/-- A bad header: SEALED with the number of the record at unit 1 when that record's header check is valid, else FREE
(R189). -/
def readBadHeader (m : Memory) (g : Seg) : HeaderReading :=
  if holdsRecord m g 1 && headerCheckOk m g 1 then
    { reading := .sealed, first := (stored m g 1).seq, repair := headerCells g .sealed (stored m g 1).seq }
  else { reading := .free, first := 0, repair := headerCells g .free 0 }

/-- The reading of the header of segment `g` (R189). -/
def readHeader (m : Memory) (g : Seg) : HeaderReading :=
  let h := m.bytes (unitAddr g 0) 8
  match storedState (h.getD 0 0) with
  | some st => if crc8 (h.take 5) = h.getD 5 0 then { reading := st, first := rd32 h 1, repair := [] } else readBadHeader m g
  | none => readBadHeader m g

/-! ## The walk (R190) -/

/-- What the walk of one segment finds: its repairs in order, the COMMITTED records kept, the numbers of all its readable
records in order, the counts, and the unit after its last place, zeroed places included (R191). -/
structure Walk where
  repairs : List Host.Cell
  kept : List Stored
  seqs : List Nat
  voided : Nat
  bad : Nat
  fill : Nat
  deriving DecidableEq, Repr, Inhabited

/-- A walk that ends at unit `u`. -/
def Walk.endAt (u : Nat) : Walk := { repairs := [], kept := [], seqs := [], voided := 0, bad := 0, fill := u }

/-- The byte writes that zero units `u` to 255 of `g`, in increasing address. -/
def zeroCells (g : Seg) (u : Nat) : List Host.Cell := cellsAt (unitAddr g u) (List.replicate ((256 - u) * 8) 0x00)

/-- A place is readable: its state is one of R2, its size lies in 3-32 and agrees with its payload length (R1), and the
record ends at or before unit 255 (R190). -/
def readable (r : Stored) (u : Nat) : Bool :=
  r.state != .other && 3 ≤ r.size && r.size ≤ 32 && r.size == sizeUnits r.len && u + r.size ≤ 256

/-- The state byte of the record at unit `u` written VOID. -/
def voidCell (g : Seg) (u : Nat) : Host.Cell := (unitAddr g u, RecState.void.byte)

/-- One readable record before the rest of its segment's walk (R190). -/
def Walk.visit (m : Memory) (g : Seg) (u : Nat) (r : Stored) (w : Walk) : Walk :=
  let w := { w with seqs := r.seq :: w.seqs }
  match r.state with
  | .opened => { w with repairs := voidCell g u :: w.repairs, voided := w.voided + 1 }
  | .committed =>
    if headerCheckOk m g u && payloadCheckOk m g u then { w with kept := r :: w.kept }
    else { w with repairs := voidCell g u :: w.repairs, voided := w.voided + 1, bad := w.bad + 1 }
  | .void | .free | .other => w

/-- An unreadable place at unit `u` whose state is `st` (R190): it is zeroed with all that follows it, and no unit is left
after it (R191; log 13). -/
def Walk.unreadable (g : Seg) (u : Nat) (st : RecState) : Walk :=
  { Walk.endAt 256 with repairs := zeroCells g u, voided := 1, bad := if st = .opened then 0 else 1 }

/-- The walk of segment `g` from unit `u` (R190). -/
def walkFrom (m : Memory) (g : Seg) : Nat → Nat → Walk
  | 0, u => Walk.endAt u
  | fuel + 1, u =>
    if placeState m g u = .free then Walk.endAt u
    else
      let r := stored m g u
      if readable r u then Walk.visit m g u r (walkFrom m g fuel (u + r.size))
      else Walk.unreadable g u r.state

/-- A segment that reads FILLING or SEALED is walked; one that reads FREE is not (R189). A segment holds at most 85
records (R18). -/
def walkOf (m : Memory) (g : Seg) (h : HeaderReading) : Walk :=
  if h.reading = .free then Walk.endAt 1 else walkFrom m g 86 1

/-- The summary of R32 over the COMMITTED records of a segment. -/
def summaryOf (st : SegState) (kept : List Stored) : IndexEntry :=
  kept.foldl (fun e r => e.add r.seq r.stamp r.cls r.source r.node r.unset) (IndexEntry.empty st)

/-! ## The filling segment (R191) -/

/-- How recovery comes to F: a segment that reads FILLING, an open without a record, or a SEALED segment taken up
again. -/
inductive Settle where
  | found | openedEmpty | reopened
  deriving DecidableEq, Repr

/-- The segment of the greatest rank among some; of equals the one with the lowest number (log 13). -/
def greatest (rank : Seg → Nat) (l : List Seg) : Option Seg :=
  l.foldl (fun o g => match o with
    | some b => if rank b < rank g then some g else some b
    | none => some g) none

/-- The rank of a FILLING segment: a first sequence number of 0 counts as higher than any other (R191). -/
def fillingRank (h : HeaderReading) : Nat := if h.first = 0 then 4294967296 else h.first

/-- The filling segment F (R191); `hint` is the filling segment of the chosen control copy. -/
def settleFilling (rd : Vector HeaderReading 64) (hint : Seg) : Seg × Settle :=
  let reads (st : SegState) := (fins 64).filter (fun g => (rd[g]).reading == st)
  match greatest (fun g => fillingRank rd[g]) (reads .filling) with
  | some f => (f, .found)
  | none =>
    if (rd[hint]).reading = .free ∧ ((rd[hint - 1]).reading = .sealed ∨ reads .sealed = []) then (hint, .openedEmpty)
    else match greatest (fun g => (rd[g]).first) (reads .sealed) with
      | some h => if (rd[h + 1]).reading = .free then (h + 1, .openedEmpty) else (h, .reopened)
      | none => (hint, .openedEmpty)

/-! ## The head (R192) -/

/-- A first sequence number lies below the number of the segment after it; none is above every number (R192). -/
def belowNext (first : Nat) (next : Option Nat) : Bool :=
  match next with
  | some n => first < n
  | none => true

/-- How many segments join going back from `g`; `next` is the number of the segment after it (R192). -/
def joined (isSealed : Seg → Bool) (first : Seg → Nat) (f : Seg) : Nat → Seg → Option Nat → Nat
  | 0, _, _ => 0
  | fuel + 1, g, next =>
    if g ≠ f ∧ isSealed g ∧ belowNext (first g) next then
      joined isSealed first f fuel (g - 1) (some (first g)) + 1
    else 0

/-! ## The whole recovery -/

/-- What recovery finds and settles (R189 to R193). -/
structure Recovery where
  repairs : List Host.Cell
  filling : Seg
  settle : Settle
  fillPoint : Nat
  head : Seg
  used : Nat
  index : Vector IndexEntry 64
  voided : Nat
  bad : Nat
  /-- the COMMITTED records of the journal in journal order -/
  kept : List Stored
  /-- the highest number met anywhere -/
  top : Option Nat
  deriving DecidableEq, Repr

/-- Recovery's readings of all 64 headers. -/
def readHeaders (m : Memory) : Vector HeaderReading 64 := Vector.ofFn (fun g => readHeader m g)

/-- Recovery's walks, on the memory with the header rewrites made. -/
def walks (m : Memory) (rd : Vector HeaderReading 64) : Vector Walk 64 := Vector.ofFn (fun g => walkOf m g rd[g])

/-- The header writes that settle F: the other FILLING segments become SEALED, and F is opened without a record or taken
up again (R191). -/
def settleCells (rd : Vector HeaderReading 64) (f : Seg) (how : Settle) : List Host.Cell :=
  ((fins 64).filter (fun g => (rd[g]).reading == .filling && g != f)).flatMap (fun g => headerCells g .sealed (rd[g]).first)
    ++ (match how with
      | .found => []
      | .openedEmpty => headerCells f .filling 0
      | .reopened => headerCells f .filling (rd[f]).first)

/-- A segment reads SEALED after F is settled (R191). -/
def sealedAfter (rd : Vector HeaderReading 64) (f g : Seg) : Bool := g != f && (rd[g]).reading != .free

/-- A segment is used: it lies among the `used` segments from `head` on (R192). -/
def usedFrom (head : Seg) (used : Nat) (g : Seg) : Bool := (g - head).val < used

/-- Recovery with the headers read, the segments walked and F settled (R191 to R193). `fill` is the fill point, `used`
the number of used segments and `head` the head. Repairs of one kind are made from segment 0 up, and all the header rewrites
before the walks' repairs (log 45). -/
def recoveryFrom (rewrites : List Host.Cell) (rd : Vector HeaderReading 64) (ws : Vector Walk 64) (f : Seg)
    (how : Settle) (fill used : Nat) (head : Seg) : Recovery :=
  { repairs := rewrites ++ (fins 64).flatMap (fun g => (ws[g]).repairs) ++ settleCells rd f how ++ zeroCells f fill
      ++ ((fins 64).filter (fun g => sealedAfter rd f g && !(usedFrom head used g))).flatMap
        (fun g => headerCells g .free 0)
    filling := f, settle := how, fillPoint := fill, head := head, used := used
    index := Vector.ofFn (fun g =>
      if g = f then summaryOf .filling (ws[g]).kept
      else if usedFrom head used g then summaryOf .sealed (ws[g]).kept else IndexEntry.empty .free)
    voided := (ws.toList.map Walk.voided).sum
    bad := (ws.toList.map Walk.bad).sum
    kept := ((fins 64).map (fun i => head + i)).flatMap (fun g => if usedFrom head used g then (ws[g]).kept else [])
    top := (ws.toList.flatMap Walk.seqs).max? }

/-- The number of used segments (R192); `first` is the number of F's first record. -/
def usedCount (rd : Vector HeaderReading 64) (f : Seg) (first : Option Nat) : Nat :=
  joined (sealedAfter rd f) (fun g => (rd[g]).first) f 63 (f - 1) first + 1

/-- The recovery with F settled as `how` (R191, R192). -/
def recoverySettled (rewrites : List Host.Cell) (rd : Vector HeaderReading 64) (ws : Vector Walk 64) (f : Seg)
    (how : Settle) : Recovery :=
  let fill := if how = .openedEmpty then 1 else (ws[f]).fill
  let first := if how = .openedEmpty then none else (ws[f]).seqs.head?
  let used := usedCount rd f first
  recoveryFrom rewrites rd ws f how fill used (f + 1 - Fin.ofNat 64 used)

/-- The recovery of memory `m`; `hint` is the filling segment of the chosen control copy. -/
def recoveryOf (m : Memory) (hint : Seg) : Recovery :=
  let rd := readHeaders m
  let rewrites := (fins 64).flatMap (fun g => (rd[g]).repair)
  let ws := walks (m.writeCells rewrites) rd
  let fs := settleFilling rd hint
  recoverySettled rewrites rd ws fs.1 fs.2

/-- The next sequence number after recovery (R193 step 3). -/
def nextAfter (top : Option Nat) (hint : Nat) : NextSeq :=
  match top with
  | some m => if 4294967295 ≤ m ∨ hint = 0 then .exhausted else .value (max (m + 1) hint)
  | none => if hint = 0 then .exhausted else .value hint

/-- The node sequence of the COMMITTED CAPTURE record from node `n` with the highest sequence number (R193 step 4). -/
def watermarkOf (kept : List Stored) (n : Fin 8) : Option Nat :=
  ((kept.filter (fun r => r.source == 1 && r.node == n.val)).foldl (fun (o : Option Stored) r => match o with
    | some b => if b.seq < r.seq then some r else some b
    | none => some r) none).map Stored.nodeSeq

/-- A stored record is a POWER_DOWN record: source SYSTEM, class POWER, code 3 (R10). -/
def Stored.isPowerDown (r : Stored) : Bool := r.source == 2 && r.cls == 12 && r.key.toNat / 256 == 3

/-- The cause in RECOVERED: 1 ORDERLY when the last COMMITTED record of the journal is POWER_DOWN, else 2 ABRUPT (R10,
R194). -/
def causeOf (kept : List Stored) : Nat :=
  match kept.getLast? with
  | some r => if r.isPowerDown then 1 else 2
  | none => 2

/-- The RECOVERED record (R10, R194 step 6). -/
def recoveredRequest (r : Recovery) (chosen : CopyId) : SysRequest :=
  SysRequest.make .recovered (causeOf r.kept)
    (be16 r.voided ++ be16 r.bad ++ [byte (match chosen with | .a => 0 | .b => 1)])

/-- The CP after recovery: settings and node configuration of the copy, watermarks rebuilt (R131, R132, R193). -/
def recoveredCp (c : ControlCopy) (kept : List Stored) : Cp :=
  { Cp.start with
    enabled := c.captureOn, rate := c.rate, gap := c.gap, window := c.window
    nodes := Vector.ofFn (fun n =>
      { Node.start with
        enabled := (c.nodes[n]).enabled, classes := (c.nodes[n]).classes,
        lastSeq := watermarkOf kept n, committedSeq := watermarkOf kept n }) }

/-- The JS after recovery (R192, R194). The next write goes to the copy not chosen, with the generation after the chosen
one's (R36). -/
def recoveredJs (r : Recovery) (c : ControlCopy) (chosen : CopyId) : Js :=
  { Js.start with
    head := r.head, filling := r.filling, used := r.used, index := r.index, policy := c.policy, mark := c.mark,
    lastCopy := chosen, lastGeneration := c.generation }

/-- The control copy with this name. -/
def State.copy (s : State) : CopyId → ControlCopy
  | .a => s.copyA
  | .b => s.copyB

/-- The HP's flags are cleared and its mask made all disabled (R194, R197; log 24). -/
def Hp.clearFlags (h : Hp) : Hp := { h with events := 0, mask := 0 }

/-- The TB's main-domain values after a restart (R66). -/
def Tb.mainCleared (t : Tb) : Tb := { t with staged := none, adjustment := 0, slot := none }

/-- The recovery of the present memory with the copy chosen. -/
def recoveryNow (s : State) : Recovery := recoveryOf s.mem (s.copy s.pc.chosen).filling

/-- The end of the recovery scan: steps 2 to 6 of recovery up to the RECOVERED request (R189 to R194). -/
def recover (s : State) : State :=
  let c := s.copy s.pc.chosen
  let r := recoveryNow s
  let s := s.onMem (·.writeCells r.repairs)
  let s := s.onJs (fun _ => recoveredJs r c s.pc.chosen)
  let s := s.onAu (fun _ => { Au.start with nextSeq := nextAfter r.top c.hint, fillPoint := r.fillPoint })
  let s := s.onCp (fun _ => recoveredCp c r.kept)
  let s := ((s.onCu (fun _ => Cu.start)).onWu (fun _ => Wu.start)).onHp Hp.clearFlags
  let s := (s.onTb Tb.mainCleared).onPc (fun p => { p with scanning := false })
  let s := if r.settle = .openedEmpty then requestCopy s else s
  requestSystem (recoveredRequest r s.pc.chosen) (prepare s)

/-- RECOVERY_SCAN_END (R190 to R194). -/
def execRecoveryScanEnd (s : State) : Host.Outcome State Fault Refusal :=
  .next (if s.pc.supply = .recover ∧ s.pc.scanning then recover s else s)

end Sys2Proof.Machine
end

