-- ==== Sys2Proof/Machine/Power.lean ====
section
/-! DEFINITION. The Power Controller (chapter 9): supply changes, abrupt stops, the hold-up sequence's end, START and
cold initialisation; and the end of a control block write, on which hold-up and cold initialisation wait. -/

namespace Sys2Proof.Machine

/-! ## Abrupt stops (R186, R187) -/

/-- What the write of the record in progress leaves: its first `n` bytes new, the rest old (R187). -/
def tearRecord (n : Nat) (s : State) : State :=
  match s.au.record with
  | some r =>
    match r.phase with
    | .writing => s.onMem (fun m => (m.writeCells r.undo).writeCells (r.writes.take n))
    | .requesting | .waitingClear | .refused _ => s
  | none => s

/-- The FORMAT whose last clearing is in progress, with its records discarded: its third phase comes next (R43, R44). -/
def lastOfFormat (s : State) : Option Entry :=
  match s.js.slot with
  | some { entry := e, phase := .formatClearing _ } => if s.js.clearing = some 63 then some e else none
  | _ => none

/-- The open of segment 0 follows the clearing in progress: the last one of FORMAT, or of cold initialisation (R44, R196).
Hold-up takes FORMAT's away (R181). -/
def firstOpenNext (s : State) : Bool :=
  (lastOfFormat s).isSome || (s.pc.supply == .coldInit && s.js.clearing == some 63)

/-- What the clearing in progress leaves: its upper `cut.zeroed` units zeroed (R187). When all of them are and the open of
segment 0 comes next, the header that it writes may be part written (log 19). -/
def tearClearing (cut : Cut) (s : State) : State :=
  let open0 : Bool := firstOpenNext s && cut.zeroed == 256
  let s := abandonClearing cut.zeroed s
  if open0 then s.onMem (·.writeCells ((headerCells 0 .filling 0).take cut.record)) else s

/-- What the control block write in progress leaves (R36, R187). -/
def tearCopy (how : CopyCut) (s : State) : State :=
  match s.js.copyWrite with
  | some w =>
    match how with
    | .untouched => s
    | .torn => s.setCopy w.target { w.values with checkOk := false }
    | .whole => s.setCopy w.target w.values
  | none => s

/-- What the repairs of the recovery in progress leave: the first `n` of their bytes (R187, R195). -/
def tearRepairs (n : Nat) (s : State) : State :=
  if s.pc.scanning then s.onMem (·.writeCells ((recoveryNow s).repairs.take n)) else s

/-- The battery domain after an abrupt stop (R187). -/
def tear (cut : Cut) (s : State) : State :=
  tearRepairs cut.repairs (tearCopy cut.copy (tearClearing cut (tearRecord cut.record s)))

/-- The main domain is lost: every block comes up with its values of START; the TB's counting part goes on (R79, R180,
R186). -/
def mainLost (s : State) : State :=
  { s with
    js := Js.start, au := Au.start, cu := Cu.start, wu := Wu.start, cp := Cp.start, hp := Hp.start
    tb := Tb.atStart s.tb.seconds s.tb.ticks s.tb.isSet s.tb.beatPhase
    pc := { s.pc with step := .idle, discarded := 0, scanning := false } }

/-! ## OFF (R178, R179) -/

/-- The J64 enters OFF: the battery domain holds no meaningful values, and the latch will be found set (R178, R179;
log 8). -/
def enterOff (s : State) : State :=
  let t := Config.offTime s.freeCount
  let c := Config.offCopies s.freeCount
  { s with
    tb := Tb.atStart t.1.toNat t.2.1.toNat t.2.2 (Config.offPhase s.freeCount).val
    mem := Memory.writeCells [] (Config.offMemory s.freeCount)
    copyA := c.1, copyB := c.2, freeCount := s.freeCount + 1
    pc := { s.pc with supply := .off, latch := true, reason := .backupLost } }

/-- The J64 without VMAIN: in RETAIN with VBAT, in OFF without (R178). -/
def enterUnpowered (s : State) : State :=
  if s.pc.vbat then s.onPc (fun p => { p with supply := .retain }) else enterOff s

/-! ## The supply rows (R178, R181, R185, R186) -/

/-- An abrupt stop of a powered main domain (R186). In RESET the main domain runs nothing. -/
def stopMain (cut : Cut) (s : State) : State := mainLost (if s.pc.supply.powered then tear cut s else s)

/-- RESET_ASSERT: RESET# is asserted (R186). In OFF and RETAIN it stops nothing (R178). -/
def execResetAssert (cut : Cut) (s : State) : Host.Outcome State Fault Refusal :=
  .next (
    let s' := s.onPc (fun p => { p with resetLow := true })
    if s.pc.supply.powered then (stopMain cut s').onPc (fun p => { p with supply := .reset })
    else s')

/-- RESET_RELEASE: RESET# is released, and RESET goes to START (R178). -/
def execResetRelease (s : State) : Host.Outcome State Fault Refusal :=
  .next (s.onPc (fun p => { p with resetLow := false, supply := if p.supply = .reset then .start else p.supply }))

/-- VMAIN_LOST: VMAIN becomes absent, an abrupt stop (R186). -/
def execVmainLost (cut : Cut) (s : State) : Host.Outcome State Fault Refusal :=
  .next (if s.pc.vmain then enterUnpowered (stopMain cut (s.onPc (fun p => { p with vmain := false }))) else s)

/-- VMAIN_RISE: VMAIN becomes present (R178). -/
def execVmainRise (s : State) : Host.Outcome State Fault Refusal :=
  .next (if s.pc.vmain then s
    else s.onPc (fun p => { p with vmain := true, supply := if p.resetLow then .reset else .start }))

/-- VBAT_FALL: VBAT falls below 1.8 V; without VMAIN the latch is set and the J64 enters OFF (R178, R179). -/
def execVbatFall (s : State) : Host.Outcome State Fault Refusal :=
  .next (if s.pc.vbat then
      let s' := s.onPc (fun p => { p with vbat := false })
      if s.pc.vmain then s' else enterOff s'
    else s)

/-- VBAT_RISE: VBAT rises; OFF goes to RETAIN (R178). -/
def execVbatRise (s : State) : Host.Outcome State Fault Refusal :=
  .next (s.onPc (fun p => { p with vbat := true, supply := if p.supply = .off then .retain else p.supply }))

/-- PFI falls when FORMAT's last clearing has ended and `made` steps of its third phase, 4 to 9, have been made: they keep
their effects and the rest is not carried out (R181; log 31). -/
def formatReached (made : Nat) (s : State) : State :=
  match lastOfFormat s with
  | some e => if made = 0 then s else thirdPhase e made (prepared 63 s)
  | none => s

/-- The level of PFI becomes low or high. -/
def setPfi (low : Bool) (s : State) : State := s.onPc (fun p => { p with pfiLow := low })

/-- PFI falls below 1.20 V: in RUN the hold-up sequence starts (R181). -/
def pfiFalls (made : Nat) (s : State) : State :=
  if s.pc.supply = .run then enterHoldup (formatReached made (setPfi true s)) else setPfi true s

/-- HOLDUP: PFI crosses 1.20 V; its rise changes nothing but the level (R181, R185). -/
def execHoldup (change : PfiChange) (s : State) : Host.Outcome State Fault Refusal :=
  .next (match change with
    | .falls made => pfiFalls made s
    | .rises => setPfi false s)

/-- AU_ENDED: the PC takes the AU's word: a clearing is abandoned and the final control block write is requested (R184
steps 5 and 6). -/
def execAuEnded (zeroed : Nat) (s : State) : Host.Outcome State Fault Refusal :=
  .next (if s.pc.supply = .holdup ∧ s.pc.step = .auEnded then
      let s := abandonClearing zeroed s
      requestCopy (s.onPc (fun p => { p with step := .writing (carrier s) }))
    else s)

/-! ## START (R180, R188, R196) -/

/-- Cold initialisation begins (R196 steps 1 to 3). -/
def beginCold (s : State) : State :=
  let s := s.onPc (fun p => { p with supply := .coldInit })
  let s := s.onTb (fun t => Tb.atStart 0 0 false t.beatPhase)
  let s := s.onAu (fun a => { a with nextSeq := .value 1 })
  let s := s.onJs (fun j => { j with policy := .wrap, mark := 56 })
  clearAll (s.onCp (fun _ => Cp.start))

/-- The control copy recovery chooses, none when neither is valid (R188). -/
def chooseCopy (a b : ControlCopy) : Option CopyId :=
  if a.valid then (if b.valid then some (laterCopy a b) else some .a) else if b.valid then some .b else none

/-- Recovery begins with the choice of a control copy; without one the latch is set with CONTROL_LOST (R188). -/
def beginRecovery (s : State) : State :=
  match chooseCopy s.copyA s.copyB with
  | some c => s.onPc (fun p => { p with supply := .recover, chosen := c, scanning := true })
  | none => beginCold (s.onPc (fun p => { p with latch := true, reason := .controlLost }))

/-- RETENTION_LATCH_EXAMINE: START ends with RESET# high and PFI not low (R180). -/
def execRetentionLatchExamine (s : State) : Host.Outcome State Fault Refusal :=
  .next (if s.pc.supply = .start ∧ s.pc.resetLow = false ∧ s.pc.pfiLow = false then
      (if s.pc.latch then beginCold s else beginRecovery s)
    else s)

/-! ## The end of a control block write (R37, R184, R197) -/

/-- The qualifier of COLD_START (R10). -/
def ColdReason.code : ColdReason → Nat
  | .backupLost => 1
  | .controlLost => 2

/-- Both copies are written: the main domain takes its values after cold initialisation and COLD_START is requested (R197
steps 6 and 7). -/
def coldStart (s : State) : State :=
  let s := s.onAu (fun _ => { Au.start with nextSeq := .value 1, fillPoint := 1 })
  let s := s.onCp (fun _ => Cp.start)
  let s := ((s.onCu (fun _ => Cu.start)).onWu (fun _ => Wu.start)).onHp Hp.clearFlags
  let s := prepare (s.onTb Tb.mainCleared)
  requestSystem (SysRequest.make .coldStart s.pc.reason.code []) s

/-- The hold-up sequence ends (R184 step 7). -/
def holdupEnd (s : State) : State :=
  if s.pc.vmain then (mainLost s).onPc (fun p => { p with supply := .start }) else enterUnpowered (mainLost s)

/-- CONTROL_BLOCK_WRITE_END: the control block write in progress ends (R37). -/
def execControlBlockWriteEnd (s : State) : Host.Outcome State Fault Refusal :=
  .next (match s.js.copyWrite with
    | none => s
    | some w =>
      let s := copyWritten w s
      if s.pc.supply = .coldInit then
        match w.target with
        | .a => startCopyTo .b 1 s
        | .b => coldStart s
      else if s.pc.supply = .holdup ∧ s.pc.step = .writing .thisWrite then holdupEnd s
      else nextCopy (copyCompletes s))

end Sys2Proof.Machine
end

