-- ==== Sys2Proof/Machine/TimeBase.lean ====
section
/-! DEFINITION. The Time Base (chapter 4): oscillator ticks, second boundaries, slewing, beats, and the time
commands. -/

namespace Sys2Proof.Machine

/-! ## Counting (R67, R69, R75, R76) -/

/-- The next oscillator tick is a second boundary: the ticks stand at 32,767, at 32,767 - m after a shortening, and the
hold of a lengthening is over (R67, R76). -/
def Tb.boundaryDue (t : Tb) : Bool :=
  match t.slew with
  | .straight => 32767 ≤ t.ticks
  | .shorten m => 32767 - m ≤ t.ticks
  | .lengthen m => 32767 ≤ t.ticks && m ≤ t.heldTicks

/-- The decision of the slew of the current second (R75). -/
def Tb.decide (t : Tb) : Tb :=
  let m := min 16 t.adjustment.natAbs
  if t.adjustment = 0 then { t with slew := .straight }
  else if 0 < t.adjustment then { t with slew := .shorten m, adjustment := t.adjustment - m }
  else { t with slew := .lengthen m, adjustment := t.adjustment + m }

/-- An oscillator tick that is no boundary: one tick on, or one tick of the hold of a lengthened second (R67, R76). -/
def Tb.plainTick (t : Tb) : Tb :=
  if 32767 ≤ t.ticks then { t with heldTicks := t.heldTicks + 1 } else { t with ticks := t.ticks + 1 }

/-- What a second boundary does to the TB: the staged value or the next second, ticks 0 (R67, R72). -/
def Tb.boundary (t : Tb) : Tb :=
  match t.staged with
  | some v => { t with seconds := v, ticks := 0, staged := none, isSet := true, adjustment := 0, slew := .straight,
                       heldTicks := 0, slot := none }
  | none => { t with seconds := (t.seconds + 1) % 4294967296, ticks := 0, slew := .straight, heldTicks := 0 }

/-- What the TB hands on when a staged value takes effect: the TIME_SET request, TIMESET and DONE (R72). -/
def announceSet (t : Tb) (s : State) : State :=
  match t.staged, t.slot with
  | some v, some { entry := e, old := some o } =>
    answer e .done [] (latch .timeSet
      (requestSystem (SysRequest.make .timeSet 0 (be32 o.seconds ++ be16 o.ticks ++ be32 v)) s))
  | _, _ => s

/-- A second boundary (R67, R72), with its boundary event to the WU in RUN (R68). -/
def boundaryTick (s : State) : State :=
  let old := s.tb
  let s := announceSet old (s.onTb Tb.boundary)
  if s.pc.supply = .run then s.onWu (fun w => { w with boundaries := w.boundaries + 1 }) else s

/-- One beat less of a wait; a wait at 0 is due and stays due (R69). -/
def oneBeat (o : Option Nat) : Option Nat := o.map (fun n => n - 1)

/-- A beat event: the follow timeouts of the CU and the acknowledge windows of the CP (R69, R115, R146). -/
def beatEvent (s : State) : State :=
  (s.onCu (fun u => { u with cursors := u.cursors.map (fun c => { c with beatsLeft := oneBeat c.beatsLeft }) })).onCp
    (fun p => { p with slots := p.slots.map (Option.map (fun b => { b with beatsLeft := oneBeat b.beatsLeft })) })

/-- Every 32nd oscillator tick is a beat event while the main domain is powered (R69). -/
def countBeat (s : State) : State :=
  if s.tb.beatPhase + 1 < 32 then s.onTb (fun t => { t with beatPhase := t.beatPhase + 1 })
  else
    let s := s.onTb (fun t => { t with beatPhase := 0 })
    if s.pc.supply.powered then beatEvent s else s

/-- The time advances by one oscillator tick (R67); the slew is decided when the ticks reach 32,751, while the main
domain is powered (R75). -/
def advanceTime (s : State) : State :=
  if s.tb.boundaryDue then boundaryTick s
  else
    let powered := s.pc.supply.powered
    s.onTb (fun t => if t.ticks = 32750 ∧ powered then t.plainTick.decide else t.plainTick)

/-- One oscillator tick; in OFF nothing counts (R67). -/
def oscillatorTick (s : State) : State := if s.pc.supply = .off then s else countBeat (advanceTime s)

/-- SECOND_BOUNDARY: the oscillator tick that is a second boundary (R67, R68, R72, R76). -/
def execSecondBoundary (s : State) : Host.Outcome State Fault Refusal :=
  .next (if s.tb.boundaryDue then oscillatorTick s else s)

/-- DECISION_POINT: the oscillator tick at which the ticks reach 32,751 (R75). -/
def execDecisionPoint (s : State) : Host.Outcome State Fault Refusal :=
  .next (if s.tb.ticks = 32750 ∧ s.pc.supply.powered then oscillatorTick s else s)

/-! ## The time commands (R71, R74, R77) -/

/-- Carry out `f` on the command with this opcode that has been dispatched to the TB's slot and not yet taken. -/
def withTb (opcode : Nat) (f : Entry → State → State) (s : State) : State :=
  match s.tb.slot with
  | some { entry := e, old := none } => if e.opcode.toNat = opcode then f e s else s
  | _ => s

/-- The TB answers the command in its slot, which frees the slot. -/
def answerTb (e : Entry) (r : Result) (fields : List Byte) (s : State) : State :=
  answer e r fields (s.onTb (fun t => { t with slot := none }))

/-- READ_TIME (40h): seconds, ticks, state and adjustment remaining (R77). -/
def readTime (e : Entry) (s : State) : State :=
  if e.payload ≠ [] then answerTb e .badParam [] s
  else answerTb e .done
    (be32 s.tb.seconds ++ be16 s.tb.ticks ++ [byte s.tb.isSet.toNat] ++ signed16 s.tb.adjustment) s

/-- SET_TIME (41h): the old reading is kept, the new seconds are staged, and the slot is kept until the boundary
(R71). -/
def setTime (e : Entry) (s : State) : State :=
  if e.payload ≠ [] then answerTb e .badParam [] s
  else s.onTb (fun t => { t with staged := some (rd32 e.params 0), slot := some { entry := e, old := some t.now } })

/-- ADJUST_TIME (42h): the value replaces the adjustment remaining; -32,768 is refused (R74). -/
def adjustTime (e : Entry) (s : State) : State :=
  let v := readSigned16 (e.param16 0)
  if v = -32768 ∨ e.payload ≠ [] then answerTb e .badParam [] s
  else answerTb e .done [] (s.onTb (fun t => { t with adjustment := v }))

/-- READ_TIME. -/
def execReadTime (s : State) : Host.Outcome State Fault Refusal := .next (withTb 0x40 readTime s)

/-- SET_TIME. -/
def execSetTime (s : State) : Host.Outcome State Fault Refusal := .next (withTb 0x41 setTime s)

/-- ADJUST_TIME. -/
def execAdjustTime (s : State) : Host.Outcome State Fault Refusal := .next (withTb 0x42 adjustTime s)

end Sys2Proof.Machine
end

