-- ==== Sys2Proof/Machine/WatchUnit.lean ====
section
/-! DEFINITION. The Watch Unit (chapter 5): hits, silences and the watch commands. -/

namespace Sys2Proof.Machine

/-! ## Commits and boundary events (R89 to R93) -/

/-- The record of this notice is watch `n`'s own SILENT record: class WATCH, code 1, qualifier `n` (R89). -/
def ownSilent (n : Fin 8) (c : Notice) : Bool := c.cls == 15 && c.key == BitVec.ofNat 16 (256 + n.val)

/-- Watch `n` takes a hit from this notice (R89). -/
def Watch.hitBy (w : Watch) (n : Fin 8) (c : Notice) : Bool :=
  w.armed && !(ownSilent n c) && w.desc.acceptsNotice c

/-- A hit by the record numbered `seq` (R88, R90). The silence remaining restarts at the period, less one for each boundary
event that this notice has met and that shortened it; a boundary event that still waits meets the hit, when the countdown was
running (R93; log 46). -/
def Watch.hit (w : Watch) (seq : Nat) (boundaryWaits : Bool) : Watch :=
  { w with hits := if w.countOn then sat16 (w.hits + 1) else w.hits, last := some seq,
           first := if w.latchOn then some (w.first.getD seq) else w.first, remaining := w.period - w.met.length,
           silent := false, spared := boundaryWaits && w.remaining != 0 }

/-- The oldest commit notice is no longer among those that wait (R93). -/
def Watch.noticeTaken (w : Watch) : Watch := { w with met := (w.met.map (· - 1)).filter (· != 0) }

/-- One commit notice at one watch: a hit when it matches (R89). -/
def Watch.notice (n : Fin 8) (c : Notice) (boundaryWaits : Bool) (w : Watch) : Watch :=
  (if w.hitBy n c then w.hit c.seq boundaryWaits else w).noticeTaken

/-- One commit notice at the WU: every watch it matches takes a hit, and those with INTERRUPT on send one WATCH event
between them (R89, R90). -/
def watchCommit (c : Notice) (s : State) : State :=
  let fires := (fins 8).any (fun n => (s.wu.watches[n]).hitBy n c && (s.wu.watches[n]).interruptOn)
  latchIf fires .watch (s.onWu (fun u =>
    { u with watches := Vector.ofFn (fun n => (u.watches[n]).notice n c (u.boundaries != 0)) }))

/-- WU_COMMIT_NOTICE: the WU takes the oldest commit notice (R89). -/
def execWuCommitNotice (s : State) : Host.Outcome State Fault Refusal :=
  .next (match s.wu.notices with
    | [] => s
    | c :: rest => watchCommit c (s.onWu (fun u => { u with notices := rest })))

/-- The watch's silence runs out at the next boundary event (R91), unless that event has met the hit that restarted it
(R93). -/
def Watch.runsOut (w : Watch) : Bool := w.armed && w.remaining == 1 && !w.spared

/-- The commit notices that meet a boundary event which shortens the silence remaining without ending it: those that wait,
`waiting` of them (R93). Once the countdown has ended, a hit restarts it at the whole period. -/
def Watch.meets (w : Watch) (waiting : Nat) : List Nat :=
  if w.remaining = 1 then [] else if waiting = 0 then w.met else w.met ++ [waiting]

/-- A boundary event at one watch, with `waiting` commit notices not yet taken (R91, R93). -/
def Watch.boundary (waiting : Nat) (w : Watch) : Watch :=
  if w.armed && w.remaining != 0 then
    { w with remaining := w.remaining - 1, silent := w.silent || w.runsOut, spared := false, met := w.meets waiting }
  else w

/-- The SILENT record of watch `n` (R10, R11). -/
def silentRequest (n : Fin 8) (w : Watch) : SysRequest := SysRequest.make .silent n.val (opt32 w.last)

/-- The SILENT requests of the watches whose silence runs out, in increasing watch number (R91). -/
def silentRequests (ws : Vector Watch 8) : List SysRequest :=
  ((fins 8).filter (fun n => (ws[n]).runsOut)).map (fun n => silentRequest n ws[n])

/-- One boundary event at the WU (R91). -/
def watchBoundary (s : State) : State :=
  let old := s.wu.watches
  let fires := (fins 8).any (fun n => (old[n]).runsOut && (old[n]).interruptOn)
  let s := s.onWu (fun u => { u with watches := u.watches.map (Watch.boundary u.notices.length) })
  latchIf fires .silent ((silentRequests old).foldl (fun s q => requestSystem q s) s)

/-- BOUNDARY_EVENT: the WU takes a boundary event (R91). -/
def execBoundaryEvent (s : State) : Host.Outcome State Fault Refusal :=
  .next (if s.wu.boundaries = 0 then s
    else watchBoundary (s.onWu (fun u => { u with boundaries := u.boundaries - 1 })))

/-! ## The watch commands (R94 to R96) -/

/-- Carry out `f` on the command with this opcode in the WU's slot. -/
def withWu (opcode : Nat) (f : Entry → State → State) (s : State) : State :=
  match s.wu.slot with
  | some e => if e.opcode.toNat = opcode then f e s else s
  | none => s

/-- The WU answers the command in its slot, which frees the slot. -/
def answerWu (e : Entry) (r : Result) (fields : List Byte) (s : State) : State :=
  answer e r fields (s.onWu (fun u => { u with slot := none }))

/-- Update watch `n`. -/
def Wu.onWatch (n : Fin 8) (f : Watch → Watch) (u : Wu) : Wu := { u with watches := vmod u.watches n f }

/-- The watch an entry names in parameter byte 0, when the number is at most 7. -/
def Entry.watch (e : Entry) : Option (Fin 8) := if h : e.param 0 < 8 then some ⟨e.param 0, h⟩ else none

/-- A watch armed afresh with the actions, period and descriptor given (R94). -/
def Watch.armedWith (actions period : Nat) (d : Descriptor) : Watch :=
  { armed := true, desc := d, countOn := actions.testBit 0, interruptOn := actions.testBit 1,
    latchOn := actions.testBit 2, hits := 0, first := none, last := none, period := period, remaining := period,
    silent := false, spared := false, met := [] }

/-- WATCH_SET (50h), R94. -/
def watchSet (e : Entry) (s : State) : State :=
  match e.watch with
  | none => answerWu e .badParam [] s
  | some n =>
    if 7 < e.param 1 ∨ e.payload.length ≠ 22 then answerWu e .badParam [] s
    else match parseDescriptor e.payload with
      | none => answerWu e .badParam [] s
      | some d =>
        answerWu e .done [] (s.onWu (Wu.onWatch n (fun _ => Watch.armedWith (e.param 1) (e.param16 2) d)))

/-- The fields of a WATCH_READ response (R95, 10). -/
def Watch.fields (w : Watch) : List Byte :=
  [byte (flagBits [w.countOn, w.interruptOn, w.latchOn, w.first.isSome, w.last.isSome, w.silent, false, w.armed])]
    ++ be16 w.hits ++ opt32 w.first ++ opt32 w.last ++ be16 w.remaining

/-- The clear option of WATCH_READ (R95). -/
def Watch.cleared (w : Watch) : Watch := { w with hits := 0, first := none, last := none, silent := false }

/-- WATCH_READ (51h), R95. -/
def watchRead (e : Entry) (s : State) : State :=
  match e.watch with
  | none => answerWu e .badParam [] s
  | some n =>
    if 1 < e.param 1 ∨ e.payload ≠ [] then answerWu e .badParam [] s
    else
      let fields := (s.wu.watches[n]).fields
      answerWu e .done fields
        (if e.param 1 = 1 then s.onWu (Wu.onWatch n Watch.cleared) else s)

/-- WATCH_OFF (52h), R96. -/
def watchOff (e : Entry) (s : State) : State :=
  match e.watch with
  | none => answerWu e .badParam [] s
  | some n =>
    if e.payload ≠ [] then answerWu e .badParam [] s
    else answerWu e .done [] (s.onWu (Wu.onWatch n (fun w => { w with armed := false, remaining := 0 })))

/-- WATCH_SET. -/
def execWatchSet (s : State) : Host.Outcome State Fault Refusal := .next (withWu 0x50 watchSet s)

/-- WATCH_READ. -/
def execWatchRead (s : State) : Host.Outcome State Fault Refusal := .next (withWu 0x51 watchRead s)

/-- WATCH_OFF. -/
def execWatchOff (s : State) : Host.Outcome State Fault Refusal := .next (withWu 0x52 watchOff s)

end Sys2Proof.Machine
end

