-- ==== Sys2Proof/Machine/Dispatch.lean ====
section
/-! DEFINITION. The meaning of each command: one arm per constructor of Instr. -/

namespace Sys2Proof.Machine

/-- The effect of a command on everything but the queue. -/
def exec (i : Instr) (s : State) : Host.Outcome State Fault Refusal :=
  match i with
  | .append => Sys2Proof.Machine.execAppend s
  | .format => Sys2Proof.Machine.execFormat s
  | .setPolicy => Sys2Proof.Machine.execSetPolicy s
  | .journalStatus => Sys2Proof.Machine.execJournalStatus s
  | .segmentInfo => Sys2Proof.Machine.execSegmentInfo s
  | .openCursor => Sys2Proof.Machine.execOpenCursor s
  | .seek => Sys2Proof.Machine.execSeek s
  | .seekTime => Sys2Proof.Machine.execSeekTime s
  | .fetch => Sys2Proof.Machine.execFetch s
  | .count => Sys2Proof.Machine.execCount s
  | .cancel => Sys2Proof.Machine.execCancel s
  | .close => Sys2Proof.Machine.execClose s
  | .cursorStatus => Sys2Proof.Machine.execCursorStatus s
  | .readTime => Sys2Proof.Machine.execReadTime s
  | .setTime => Sys2Proof.Machine.execSetTime s
  | .adjustTime => Sys2Proof.Machine.execAdjustTime s
  | .watchSet => Sys2Proof.Machine.execWatchSet s
  | .watchRead => Sys2Proof.Machine.execWatchRead s
  | .watchOff => Sys2Proof.Machine.execWatchOff s
  | .captureSet => Sys2Proof.Machine.execCaptureSet s
  | .nodeSet => Sys2Proof.Machine.execNodeSet s
  | .nodeRead => Sys2Proof.Machine.execNodeRead s
  | .dispatch => Sys2Proof.Machine.execDispatch s
  | .statusByte => Sys2Proof.Machine.execStatusByte s
  | .cmd bytes => Sys2Proof.Machine.execCmd bytes s
  | .rsp => Sys2Proof.Machine.execRsp s
  | .rspPop clocked => Sys2Proof.Machine.execRspPop clocked s
  | .win cursor offset => Sys2Proof.Machine.execWin cursor offset s
  | .winEnd => Sys2Proof.Machine.execWinEnd s
  | .sts => Sys2Proof.Machine.execSts s
  | .ack bytes => Sys2Proof.Machine.execAck bytes s
  | .mask bytes => Sys2Proof.Machine.execMask bytes s
  | .unknownPort port => Sys2Proof.Machine.execUnknownPort port s
  | .arbiterChoice => Sys2Proof.Machine.execArbiterChoice s
  | .nextSegmentRequest => Sys2Proof.Machine.execNextSegmentRequest s
  | .writeStepEnd => Sys2Proof.Machine.execWriteStepEnd s
  | .holdFloorReport => Sys2Proof.Machine.execHoldFloorReport s
  | .clearingEnd => Sys2Proof.Machine.execClearingEnd s
  | .controlBlockWriteEnd => Sys2Proof.Machine.execControlBlockWriteEnd s
  | .auStopped zeroed => Sys2Proof.Machine.execAuStopped zeroed s
  | .secondBoundary => Sys2Proof.Machine.execSecondBoundary s
  | .decisionPoint => Sys2Proof.Machine.execDecisionPoint s
  | .boundaryEvent => Sys2Proof.Machine.execBoundaryEvent s
  | .wuCommitNotice => Sys2Proof.Machine.execWuCommitNotice s
  | .cuCommitNotice => Sys2Proof.Machine.execCuCommitNotice s
  | .reclaimNotice => Sys2Proof.Machine.execReclaimNotice s
  | .followTimeout c => Sys2Proof.Machine.execFollowTimeout c s
  | .scanStep => Sys2Proof.Machine.execScanStep s
  | .tailTest => Sys2Proof.Machine.execTailTest s
  | .characterReceived char good => Sys2Proof.Machine.execCharacterReceived char good s
  | .gapTimeout => Sys2Proof.Machine.execGapTimeout s
  | .idleTimeElapsed => Sys2Proof.Machine.execIdleTimeElapsed s
  | .acknowledgeWindowEnd n => Sys2Proof.Machine.execAcknowledgeWindowEnd n s
  | .ackFrameStart => Sys2Proof.Machine.execAckFrameStart s
  | .ackFrameEnd => Sys2Proof.Machine.execAckFrameEnd s
  | .cpCommitNotice => Sys2Proof.Machine.execCpCommitNotice s
  | .refusalNotice => Sys2Proof.Machine.execRefusalNotice s
  | .holdup change => Sys2Proof.Machine.execHoldup change s
  | .auEnded zeroed => Sys2Proof.Machine.execAuEnded zeroed s
  | .resetAssert cut => Sys2Proof.Machine.execResetAssert cut s
  | .resetRelease => Sys2Proof.Machine.execResetRelease s
  | .vmainLost cut => Sys2Proof.Machine.execVmainLost cut s
  | .vmainRise => Sys2Proof.Machine.execVmainRise s
  | .vbatFall => Sys2Proof.Machine.execVbatFall s
  | .vbatRise => Sys2Proof.Machine.execVbatRise s
  | .retentionLatchExamine => Sys2Proof.Machine.execRetentionLatchExamine s
  | .recoveryScanEnd => Sys2Proof.Machine.execRecoveryScanEnd s

end Sys2Proof.Machine
end

