-- ==== Sys2Proof/Machine/Step.lean ====
section
/-! DEFINITION. One step of the block: the command at the front of the queue, or an oscillator tick when none waits. -/

namespace Sys2Proof.Machine

/-- With a command waiting, the front one is carried out on the state with the queue's rest. With none waiting, one
oscillator tick passes (R67, R69; log 2). -/
def step (s : State) : Host.Outcome State Fault Refusal :=
  match s.pending with
  | [] => .next (oscillatorTick s)
  | c :: rest => exec c { s with pending := rest }

/-- The state with the command that `w` spells at the front of its queue; unchanged when it spells none (log 9). -/
def State.withFetchWord (s : State) (nbits w : Nat) : State :=
  match Sys2Proof.decodeTableWord nbits w with
  | some c => { s with pending := c :: s.pending }
  | none => s

end Sys2Proof.Machine
end

