-- ==== Sys2Proof/Safety.lean ====
section
/-! DEFINITION. What a sound state of the J64 is, in the terms the statements use. -/

namespace Sys2Proof.Machine

/-- A decided slew shortens or lengthens the second by 1 to 16 ticks (R75), and only the last tick of a lengthened second
is held, for no more than the ticks it is lengthened by (R76). -/
def slewLaw (t : Tb) : Prop :=
  (match t.slew with
    | .straight => t.heldTicks = 0
    | .shorten m => 1 ≤ m ∧ m ≤ 16 ∧ t.heldTicks = 0
    | .lengthen m => 1 ≤ m ∧ m ≤ 16 ∧ t.heldTicks ≤ m) ∧
  (t.heldTicks ≠ 0 → t.ticks = 32767)

/-- The ninth law (R66): ticks below 32,768 and an adjustment of at most 32,767 either way; and a decided slew within its
bounds. The seconds, and a staged value, are 32-bit numbers. -/
def timeLaw (t : Tb) : Prop :=
  t.ticks < 32768 ∧ t.adjustment.natAbs ≤ 32767 ∧ t.seconds < 4294967296 ∧ slewLaw t ∧
    match t.staged with
    | some v => v < 4294967296
    | none => True

/-- The moment before a second boundary (R67, R76): the ticks at their last value, short by a decided shortening, or the
hold of a decided lengthening over. -/
def lastTick (t : Tb) : Prop :=
  match t.slew with
  | .straight => t.ticks = 32767
  | .shorten m => t.ticks = 32767 - m
  | .lengthen m => t.ticks = 32767 ∧ t.heldTicks = m

/-- The HP's part of the tests of R162 (R163): at most 8 commands outstanding, no tag twice, no tag 255. -/
def hostLaw (h : Hp) : Prop := h.outstanding ≤ 8 ∧ h.tags.Nodup ∧ (0xFF : Byte) ∉ h.tags

/-- The commands the units hold: the taken host lane places, the taken slots, and the fetches that are parked. -/
def heldCommands (s : State) : Nat :=
  s.au.hostLane.length + s.js.slot.isSome.toNat + s.cu.slot.isSome.toNat + s.tb.slot.isSome.toNat +
    s.wu.slot.isSome.toNat + s.cp.slot.isSome.toNat + (s.cu.cursors.toList.filter (fun x => x.parkedTag.isSome)).length

/-- The count that goes with the sixth law (R163): in RUN the commands that wait, the commands the units hold and the
responses not yet popped are together no more than the outstanding ones. Outside RUN both queues are empty (R176), and but for the record in progress of HOLDUP no unit
holds a host's command. A host record in progress has its lane place. -/
def outstandingLaw (s : State) : Prop :=
  (s.pc.supply = .run → s.hp.commands.length + s.hp.responses.length + heldCommands s ≤ s.hp.outstanding) ∧
  (s.pc.supply ≠ .run → s.hp.commands = [] ∧ s.hp.responses = []) ∧
  (s.pc.supply ≠ .run → s.pc.supply ≠ .holdup → heldCommands s = 0) ∧
  ∀ r tag, s.au.record = some r → r.origin = .host tag → ∃ p ∈ s.au.hostLane, p.state = .inProgress

/-- The tags of the commands that wait, of those that the units hold, and of the responses not yet popped (R163). -/
def liveTags (s : State) : List Byte :=
  s.hp.commands.map (·.tag) ++ s.au.hostLane.map (·.entry.tag) ++ (s.js.slot.map (·.entry.tag)).toList ++
    (s.cu.slot.map (·.entry.tag)).toList ++ (s.tb.slot.map (·.entry.tag)).toList ++ (s.wu.slot.map (·.tag)).toList ++
    (s.cp.slot.map (·.entry.tag)).toList ++ s.cu.cursors.toList.filterMap Cursor.parkedTag ++ s.hp.responses.map (·.tag)

/-- The sixth law (R163): in RUN no tag occurs twice among these, and each is an outstanding tag. A host record in progress
has a lane place with its tag. -/
def tagLaw (s : State) : Prop :=
  (s.pc.supply = .run → (liveTags s).Nodup ∧ ∀ x ∈ liveTags s, x ∈ s.hp.tags) ∧
  ∀ r tag, s.au.record = some r → r.origin = .host tag → ∃ p ∈ s.au.hostLane, p.state = .inProgress ∧ p.entry.tag = tag

/-- The lanes of the AU keep to their places (R45). -/
def laneLaw (a : Au) : Prop := a.systemLane.length ≤ 4 ∧ a.hostLane.length ≤ 2

/-- The HP is online exactly in RUN (8.10), and a powered main domain has VMAIN (R178). -/
def onlineLaw (s : State) : Prop :=
  (s.hp.offline = false ↔ s.pc.supply = .run) ∧
    ((s.pc.supply ≠ .off ∧ s.pc.supply ≠ .retain) → s.pc.vmain = true)

/-- A sound state. -/
def Sound (s : State) : Prop :=
  s.mem.wf = true ∧ timeLaw s.tb ∧ hostLaw s.hp ∧ laneLaw s.au ∧ onlineLaw s ∧ outstandingLaw s ∧ tagLaw s

end Sys2Proof.Machine
end

