-- ==== Sys2Proof/Certificates/Slice0/Obligations.lean ====
section
/-! DEFINITION. The statements about this model. A response is posted at the HP by `Hp.post`, which PostingSetsRspFlag
describes; a statement whose conclusion is an equation of states says by it that everything it does not name is unchanged. -/

section

open Sys2Proof Sys2Proof.Machine

/-! ## The block, its reset and its laws -/

/-- The command at the front of the queue is carried out on the state with the queue's rest; with no command waiting one
oscillator tick passes. The queue and the tick are the model's choices (logs 1, 2). -/
def Obligations.StepRunsFrontCommand : Prop :=
  (∀ (c : Instr) (s : State) (rest : List Instr), s.pending = c :: rest → step s = exec c { s with pending := rest }) ∧
    ∀ s : State, s.pending = [] → step s = .next (oscillatorTick s)

/-- Every command answers a next state in every state, and changes nothing of the queue of commands. That a command whose
happening cannot occur changes nothing, and so answers a next state too, is the model's choice (log 12), as is the queue
(log 1). -/
def Obligations.EveryCommandRuns : Prop :=
  ∀ (c : Instr) (s : State), ∃ t, exec c s = .next t ∧ t.pending = s.pending

/-- START as R180 and R160 describe it, and sound. That the reset state is START on a new part is the model's choice
(log 3). -/
def Obligations.ResetIsStart : Prop :=
  let s := State.reset
  s.pc.supply = .start ∧ s.pc.latch = true ∧ s.pc.reason = .backupLost ∧ s.js.journal = .notReady ∧
    s.au.nextSeq.sent = 0 ∧ s.js.used = 0 ∧ s.hp.offline = true ∧ s.hp.outstanding = 0 ∧ s.hp.mask = 0 ∧
    s.hp.flags = 0 ∧ s.cp.receiver = .disabled ∧ s.pending = [] ∧ Sound s

/-- Every step keeps the canonical form of the record memory. -/
def Obligations.MemoryStaysCanonical : Prop :=
  ∀ s t : State, s.mem.wf = true → step s = .next t → t.mem.wf = true

/-- Every step keeps the ninth law (R66): ticks below 32,768 and an adjustment of at most 32,767 either way, with seconds
and a staged value in 32 bits; and a decided slew of 1 to 16 ticks, of which no more than the lengthening is held (R75,
R76). -/
def Obligations.TimeLawKept : Prop := ∀ s t : State, timeLaw s.tb → step s = .next t → timeLaw t.tb

/-- Every step keeps the HP's bound of 8 outstanding commands, with no tag twice and no tag 255 (R162, R163), and the
AU's 4 system lane requests and 2 host lane places (R45, R46). While the HP is online exactly in RUN, every step keeps a
count too (R163, R164, R167): the commands that wait, those the units hold and the responses are together no more than the
outstanding ones, so that neither queue of the HP ever holds more than 8. -/
def Obligations.QueueLawsKept : Prop :=
  (∀ s t : State, hostLaw s.hp ∧ laneLaw s.au → step s = .next t → hostLaw t.hp ∧ laneLaw t.au) ∧
  ∀ s t : State, onlineLaw s → hostLaw s.hp → outstandingLaw s → step s = .next t →
    outstandingLaw t ∧ t.hp.commands.length + t.hp.responses.length ≤ 8

/-- The sixth law (R163): a tag occurs at most once among the commands in the command queue, in unit slots and host lane
places, parked in cursors, and the responses in the response queue, and each of these tags is an outstanding one. Every step
keeps it, while the HP is online exactly in RUN and units hold commands as `outstandingLaw` says. -/
def Obligations.TagsStayUnique : Prop :=
  ∀ s t : State, onlineLaw s → hostLaw s.hp → outstandingLaw s → tagLaw s → step s = .next t → tagLaw t

/-- Every step keeps the HP online exactly in RUN (R176, R177), a powered main domain having VMAIN (R178). RUN is entered
from RECOVER or COLD_INIT alone, with the journal READY, the READY flag latched and the HP online (R177, R194, R197); the
retention-lost latch is cleared by a step of COLD_INIT alone, which ends it (R179, R197). -/
def Obligations.RunIsOnlineAndEntered : Prop :=
  (∀ s t : State, onlineLaw s → step s = .next t → onlineLaw t) ∧
  (∀ s t : State, s.pc.supply ≠ .run → step s = .next t → t.pc.supply = .run →
    t.js.journal = .ready ∧ t.hp.offline = false ∧ t.hp.flags.getLsbD 6 = true ∧
      (s.pc.supply = .recover ∨ s.pc.supply = .coldInit)) ∧
  ∀ s t : State, s.pc.latch = true → step s = .next t → t.pc.latch = false →
    s.pc.supply = .coldInit ∧ (t.pc.supply = .run ∨ t.pc.supply = .holdup)

/-- The RSP flag is the state of the response queue (R169): set exactly while the queue holds an entry; a posting joins
the back of the queue and sets it, unless the HP is OFFLINE and takes none; a pop clears it with the last entry; no ACK
changes it; STATUS_BYTE shows it as *response waiting*; with its enable on, INT# is asserted while it is set. -/
def Obligations.PostingSetsRspFlag : Prop :=
  ∀ h : Hp,
    (h.flags.getLsbD 0 = true ↔ h.responses ≠ []) ∧
    (∀ r : Response,
      (h.offline = false →
        h.post r = { h with responses := h.responses ++ [r] } ∧ (h.post r).flags.getLsbD 0 = true) ∧
      (h.offline = true → h.post r = h)) ∧
    (∀ r rest, h.responses = r :: rest → ((h.pop r).flags.getLsbD 0 = true ↔ rest ≠ [])) ∧
    (∀ bytes : List Byte, (h.ack bytes).flags.getLsbD 0 = h.flags.getLsbD 0) ∧
    (∀ s : State, s.hp = h → s.pc.supply.powered = true →
      ∃ t x, exec .statusByte s = .next t ∧ t.hp.tx = some x ∧ x.status.getLsbD 5 = h.flags.getLsbD 0) ∧
    (h.mask.getLsbD 0 = true → h.flags.getLsbD 0 = true → h.intAsserted = true)

/-! ## The Time Base -/

/-- READ_TIME (R77) answers the time as it stands; SET_TIME (R71) keeps the old reading, stages the new seconds and keeps
the slot. ADJUST_TIME (R74): -32,768 changes nothing; any other value replaces the adjustment, the decided slew and the
state staying; a staged value that takes effect ends it; it waits in the queue while a SET_TIME holds the slot. Each of
the three with a payload is refused. -/
def Obligations.TimeCommandsAnswer : Prop :=
  (∀ (s : State) (e : Entry), s.tb.slot = some { entry := e, old := none } →
    let answers (adjustment : Int) (r : Result) (fields : List Byte) : Host.Outcome State Fault Refusal := .next
      { s with
        tb := { s.tb with slot := none, adjustment := adjustment }, hp := s.hp.post (Response.plain e.tag r fields) }
    let refused := answers s.tb.adjustment .badParam []
    (e.opcode = 0x40 → e.payload = [] → exec .readTime s = answers s.tb.adjustment .done
      (be32 s.tb.seconds ++ be16 s.tb.ticks ++ [byte s.tb.isSet.toNat] ++ be16 (s.tb.adjustment % 65536).toNat)) ∧
    (e.opcode = 0x41 → e.payload = [] → exec .setTime s = .next
      { s with
        tb := { s.tb with
          staged := some (rd32 e.params 0)
          slot := some { entry := e, old := some { seconds := s.tb.seconds, ticks := s.tb.ticks } } } }) ∧
    (∀ v : Int, e.opcode = 0x42 → e.payload = [] → -32768 ≤ v → v ≤ 32767 → e.param16 0 = (v % 65536).toNat →
      exec .adjustTime s = if v = -32768 then refused else answers v .done []) ∧
    (e.opcode = 0x40 → e.payload ≠ [] → exec .readTime s = refused) ∧
    (e.opcode = 0x41 → e.payload ≠ [] → exec .setTime s = refused) ∧
    (e.opcode = 0x42 → e.payload ≠ [] → exec .adjustTime s = refused)) ∧
  (∀ (t : Tb) (n : Nat), t.staged = some n → t.boundary.adjustment = 0) ∧
  ∀ (s : State) (e : Entry) (rest : List Entry) (x : TbSlot), s.tb.slot = some x → e.opcode = 0x42 →
    s.hp.commands = e :: rest → exec .dispatch s = .next s

/-- SECOND_BOUNDARY (R67, R68, R72, R76) at the last tick of a second. With nothing staged: the next second at tick 0, and
in RUN a boundary event to the WU. With a SET_TIME staged: the new seconds at tick 0, SET, no adjustment; TIME_SET
requested, TIMESET latched, DONE posted, the slot free. -/
def Obligations.SecondBoundaryCountsOrSets : Prop :=
  ∀ s : State, lastTick s.tb → s.tb.beatPhase < 31 →
    (s.tb.staged = none → s.pc.supply ≠ .off → exec .secondBoundary s = .next
      { s with
        tb := { s.tb with
          seconds := (s.tb.seconds + 1) % 4294967296, ticks := 0, slew := .straight, heldTicks := 0,
          beatPhase := s.tb.beatPhase + 1 }
        wu := if s.pc.supply = .run then { s.wu with boundaries := s.wu.boundaries + 1 } else s.wu }) ∧
    (∀ (e : Entry) (o : Stamp) (v : Nat), s.tb.staged = some v → s.tb.slot = some { entry := e, old := some o } →
      s.pc.supply = .run → s.au.holdup = .idle → s.au.systemLane.length < 4 → exec .secondBoundary s = .next
      { s with
        tb := { s.tb with
          seconds := v, ticks := 0, isSet := true, staged := none, adjustment := 0, slew := .straight, heldTicks := 0,
          slot := none, beatPhase := s.tb.beatPhase + 1 }
        au := { s.au with
          systemLane := s.au.systemLane ++
            [{ kind := .timeSet, payload := [1, 0] ++ (be32 o.seconds ++ be16 o.ticks ++ be32 v) }] }
        hp := Hp.post (Response.plain e.tag .done []) { s.hp with events := s.hp.events ||| 0x80 }
        wu := { s.wu with boundaries := s.wu.boundaries + 1 } })

/-- DECISION_POINT (R75): at tick 32,751 up to 16 ticks of the adjustment are decided for this second. From there on the
boundary is due after the ticks that make the second 32,768 - m, 32,768 or 32,768 + m ticks long (R67, R76). -/
def Obligations.DecisionPointSetsSecondLength : Prop :=
  (∀ s : State, s.tb.ticks = 32750 → s.pc.supply.powered = true → s.tb.beatPhase < 31 → s.tb.slew = .straight →
    exec .decisionPoint s = .next
      { s with
        tb := { s.tb with
          ticks := 32751, beatPhase := s.tb.beatPhase + 1
          slew := if s.tb.adjustment = 0 then .straight
            else if 0 < s.tb.adjustment then .shorten (min 16 s.tb.adjustment.natAbs)
            else .lengthen (min 16 s.tb.adjustment.natAbs)
          adjustment := if 16 < s.tb.adjustment then s.tb.adjustment - 16
            else if s.tb.adjustment < -16 then s.tb.adjustment + 16 else 0 } }) ∧
  ∀ (t : Tb) (k : Nat), t.ticks = 32751 → t.heldTicks = 0 →
    (t.slew = .straight → k ≤ 16 → ((Tb.plainTick^[k] t).boundaryDue = true ↔ k = 16)) ∧
    (∀ m, t.slew = .shorten m → 1 ≤ m → m ≤ 16 → k ≤ 16 - m →
      ((Tb.plainTick^[k] t).boundaryDue = true ↔ k = 16 - m)) ∧
    (∀ m, t.slew = .lengthen m → 1 ≤ m → k ≤ 16 + m → ((Tb.plainTick^[k] t).boundaryDue = true ↔ k = 16 + m))

/-- Every 32nd oscillator tick is a beat event: each follow timeout and each acknowledge window that runs loses one beat
(R69). No other tick touches them. That the ticks are counted on in RESET and RETAIN too, where no beat event is made, is
the model's inference (log 33). -/
def Obligations.BeatsCountWaitsDown : Prop :=
  ∀ s : State, s.pc.supply ≠ .off →
    let t := oscillatorTick s
    let fewer (o : Option Nat) := o.map (fun n => n - 1)
    (s.tb.beatPhase < 31 → t.tb.beatPhase = s.tb.beatPhase + 1 ∧ t.cu = s.cu ∧ t.cp = s.cp) ∧
    (s.tb.beatPhase = 31 → t.tb.beatPhase = 0 ∧
      (s.pc.supply.powered = true →
        t.cu = { s.cu with cursors := s.cu.cursors.map (fun c => { c with beatsLeft := fewer c.beatsLeft }) } ∧
        t.cp = { s.cp with
          slots := s.cp.slots.map (Option.map (fun b => { b with beatsLeft := fewer b.beatsLeft })) }) ∧
      (s.pc.supply.powered = false → t.cu = s.cu ∧ t.cp = s.cp))

/-! ## Match descriptors and the Watch Unit -/

/-- The descriptor's tests (R81): it is refused exactly when a source bit above the three is set, a present flag is neither
0 nor 1, a present bound has ticks above 32,767, or both are present and the first is the later. The match test (R82 to
R84): source, class, for a CAPTURE record node, the key under the care mask, and the stamp within the present bounds. The
pruning test (R85): source and class sets with a member in common, the node sets too for an entry of CAPTURE records alone,
and the bounds within reach of the entry's stamps; so an entry that summarises a record the descriptor accepts is not
pruned. -/
def Obligations.DescriptorsSelectRecords : Prop :=
  (∀ l : List Byte,
    (parseDescriptor l = none ↔ 7 < rd8 l 0 ∨ 1 < rd8 l 8 ∨ 1 < rd8 l 15 ∨ (rd8 l 8 = 1 ∧ 32767 < rd16 l 13) ∨
      (rd8 l 15 = 1 ∧ 32767 < rd16 l 20) ∨
      (rd8 l 8 = 1 ∧ rd8 l 15 = 1 ∧ rd32 l 16 * 32768 + rd16 l 20 < rd32 l 9 * 32768 + rd16 l 13)) ∧
    ∀ d, parseDescriptor l = some d →
      d.sources.toNat = rd8 l 0 ∧ d.classes.toNat = rd16 l 1 ∧ d.nodes.toNat = rd8 l 3 ∧ d.key.toNat = rd16 l 4 ∧
        d.care.toNat = rd16 l 6 ∧
        d.timeFrom = (if rd8 l 8 = 1 then some { seconds := rd32 l 9, ticks := rd16 l 13 } else none) ∧
        d.timeTo = (if rd8 l 15 = 1 then some { seconds := rd32 l 16, ticks := rd16 l 20 } else none)) ∧
  (∀ (d : Descriptor) (source cls node : Nat) (key : BitVec 16) (stamp : Stamp),
    d.accepts source cls node key stamp = true ↔
      d.sources.getLsbD source = true ∧ d.classes.getLsbD cls = true ∧ (source = 1 → d.nodes.getLsbD node = true) ∧
        (∀ i, d.care.getLsbD i = true → key.getLsbD i = d.key.getLsbD i) ∧
        (∀ t, d.timeFrom = some t → t.total ≤ stamp.total) ∧ ∀ t, d.timeTo = some t → stamp.total ≤ t.total) ∧
  (∀ (d : Descriptor) (x : IndexEntry),
    d.canHold x = true ↔
      (∃ i, x.sources.getLsbD i = true ∧ d.sources.getLsbD i = true) ∧
        (∃ i, x.classes.getLsbD i = true ∧ d.classes.getLsbD i = true) ∧
        (x.sources = 2 → ∃ i, x.nodes.getLsbD i = true ∧ d.nodes.getLsbD i = true) ∧
        (∀ t, d.timeFrom = some t → ∃ m, x.maxStamp = some m ∧ t.total ≤ m.total) ∧
        ∀ t, d.timeTo = some t → ∃ m, x.minStamp = some m ∧ m.total ≤ t.total) ∧
  ∀ (d : Descriptor) (x : IndexEntry) (seq source cls node : Nat) (key : BitVec 16) (stamp : Stamp) (unset : Bool),
    d.accepts source cls node key stamp = true →
    d.canHold (x.add seq stamp cls source node unset) = true

/-- WATCH_SET (R94): a failed test leaves the watch; otherwise it is armed afresh. WATCH_READ (R95): the values as they
stand, and with the clear option hit count, first-hit, last-hit and SILENT cleared. WATCH_OFF (R96): the watch is OFF with
no silence remaining and everything else of it kept; an OFF watch takes no hit and no boundary event. -/
def Obligations.WatchCommandsAnswer : Prop :=
  (∀ (s : State) (e : Entry), s.wu.slot = some e →
    let refused : Host.Outcome State Fault Refusal := .next
      { s with wu := { s.wu with slot := none }, hp := s.hp.post (Response.plain e.tag .badParam []) }
    (∀ (n : Fin 8) (d : Descriptor), e.opcode = 0x50 → e.param 0 = n.val → e.param 1 ≤ 7 → e.payload.length = 22 →
      parseDescriptor e.payload = some d →
      exec .watchSet s = .next
        { s with
          wu := { s.wu with
            slot := none
            watches := s.wu.watches.set n
              { armed := true, desc := d, countOn := (e.param 1).testBit 0, interruptOn := (e.param 1).testBit 1,
                latchOn := (e.param 1).testBit 2, hits := 0, first := none, last := none, period := e.param16 2,
                remaining := e.param16 2, silent := false, spared := false, met := [] } }
          hp := s.hp.post (Response.plain e.tag .done []) }) ∧
    (e.opcode = 0x50 → 7 < e.param 0 ∨ 7 < e.param 1 ∨ e.payload.length ≠ 22 ∨ parseDescriptor e.payload = none →
      exec .watchSet s = refused) ∧
    (∀ n : Fin 8, e.opcode = 0x51 → e.param 0 = n.val → e.payload = [] → e.param 1 ≤ 1 →
      let w := s.wu.watches[n]
      exec .watchRead s = .next
        { s with
          wu := { s.wu with
            slot := none
            watches := if e.param 1 = 1 then
                s.wu.watches.set n { w with hits := 0, first := none, last := none, silent := false }
              else s.wu.watches }
          hp := s.hp.post (Response.plain e.tag .done
            ([byte (w.countOn.toNat + 2 * w.interruptOn.toNat + 4 * w.latchOn.toNat + 8 * w.first.isSome.toNat
                + 16 * w.last.isSome.toNat + 32 * w.silent.toNat + 128 * w.armed.toNat)]
              ++ be16 w.hits ++ be32 (w.first.getD 0) ++ be32 (w.last.getD 0) ++ be16 w.remaining)) }) ∧
    (e.opcode = 0x51 → 7 < e.param 0 ∨ 1 < e.param 1 ∨ e.payload ≠ [] → exec .watchRead s = refused) ∧
    (∀ n : Fin 8, e.opcode = 0x52 → e.param 0 = n.val → e.payload = [] → exec .watchOff s = .next
      { s with
        wu := { s.wu with
          slot := none, watches := s.wu.watches.set n { s.wu.watches[n] with armed := false, remaining := 0 } }
        hp := s.hp.post (Response.plain e.tag .done []) }) ∧
    (e.opcode = 0x52 → 7 < e.param 0 ∨ e.payload ≠ [] → exec .watchOff s = refused)) ∧
  ∀ (w : Watch) (n : Fin 8) (c : Notice), w.armed = false →
    w.hitBy n c = false ∧ (∀ k, w.boundary k = w) ∧ (w.remaining = 0 → { w with armed := false, remaining := 0 } = w)

/-- WU_COMMIT_NOTICE (R89, R90): each armed watch whose descriptor the record matches takes a hit, but not by its own
SILENT record; WATCH is latched when one of those has INTERRUPT on. BOUNDARY_EVENT (R91): every armed watch with silence
remaining counts down; those that reach 0 become SILENT, request their SILENT records in increasing watch number, and latch
SILENT when one has INTERRUPT on. A boundary event and a commit notice that wait together may be taken in either order (R93):
a watch with silence remaining above 1 ends alike, with one less than its period; one with 1 ends with one less than its
period and SILENT clear when the commit is first, and else becomes SILENT and is restarted at its period by the hit. That
the two meet when both wait at the WU, and how a meeting is kept in the watch, are the model's choices (log 46). -/
def Obligations.WatchesTakeCommitsAndBoundaries : Prop :=
  let hits (s : State) (c : Notice) (n : Fin 8) : Bool :=
    (s.wu.watches[n]).armed && (s.wu.watches[n]).desc.acceptsNotice c
      && !(c.cls == 15 && c.key == BitVec.ofNat 16 (256 + n.val))
  (∀ (s : State) (c : Notice) (rest : List Notice), s.wu.notices = c :: rest →
    let hit (w : Watch) : Watch :=
      { w with
        hits := if w.countOn then min (w.hits + 1) 65535 else w.hits
        first := if w.latchOn then some (w.first.getD c.seq) else w.first
        last := some c.seq, remaining := w.period - w.met.length, silent := false
        spared := s.wu.boundaries != 0 && w.remaining != 0 }
    ∃ t, exec .wuCommitNotice s = .next t ∧
      t = { s with
        wu := { s.wu with notices := rest, watches := t.wu.watches }
        hp := { s.hp with events := t.hp.events } } ∧
      (∀ n : Fin 8, let w := if hits s c n then hit s.wu.watches[n] else s.wu.watches[n];
        t.wu.watches[n] = { w with met := (w.met.map (· - 1)).filter (· != 0) }) ∧
      t.hp.events = if (fins 8).any (fun n => hits s c n && (s.wu.watches[n]).interruptOn) then s.hp.events ||| 0x02
        else s.hp.events) ∧
  (∀ s : State, 0 < s.wu.boundaries → s.au.holdup = .idle →
    let runsOut (n : Fin 8) : Bool :=
      (s.wu.watches[n]).armed && (s.wu.watches[n]).remaining == 1 && !(s.wu.watches[n]).spared
    let out := (fins 8).filter runsOut
    s.au.systemLane.length + out.length ≤ 4 →
    ∃ t, exec .boundaryEvent s = .next t ∧
      t = { s with
        wu := { s.wu with boundaries := s.wu.boundaries - 1, watches := t.wu.watches }
        au := { s.au with
          systemLane := s.au.systemLane ++ out.map (fun n =>
            { kind := .silent, payload := [1, byte n.val] ++ be32 ((s.wu.watches[n]).last.getD 0) }) }
        hp := { s.hp with events := t.hp.events } } ∧
      (∀ n : Fin 8, let w := s.wu.watches[n]; t.wu.watches[n] =
        if w.armed ∧ w.remaining ≠ 0 then
          { w with
            remaining := w.remaining - 1, silent := w.silent || runsOut n, spared := false
            met := if w.remaining = 1 then [] else if s.wu.notices = [] then w.met else w.met ++ [s.wu.notices.length] }
        else w) ∧
      t.hp.events = if out.any (fun n => (s.wu.watches[n]).interruptOn) then s.hp.events ||| 0x04 else s.hp.events) ∧
  ∀ (s : State) (c : Notice) (rest : List Notice) (n : Fin 8), s.wu.notices = c :: rest → s.wu.boundaries = 1 →
    hits s c n = true → (s.wu.watches[n]).met = [] → (s.wu.watches[n]).remaining ≤ (s.wu.watches[n]).period →
    let w := s.wu.watches[n]
    ∃ t t' u u', exec .wuCommitNotice s = .next t' ∧ exec .boundaryEvent t' = .next t ∧
      exec .boundaryEvent s = .next u' ∧ exec .wuCommitNotice u' = .next u ∧
      (1 < w.remaining → t.wu.watches[n] = u.wu.watches[n] ∧ (t.wu.watches[n]).remaining = w.period - 1 ∧
        (t.wu.watches[n]).silent = false) ∧
      (w.remaining = 1 →
        ((t'.wu.watches[n]).remaining = w.period ∧ (t.wu.watches[n]).remaining = w.period - 1 ∧
          (t.wu.watches[n]).silent = false) ∧
        (u'.wu.watches[n]).remaining = 0 ∧ (w.spared = false → (u'.wu.watches[n]).silent = true) ∧
          (u.wu.watches[n]).remaining = w.period ∧ (u.wu.watches[n]).silent = false)

/-! ## The Journal Store -/

/-- Preparation by the state of the segment after the filling segment, the policy and the hold (R26, R29): FREE is cleared;
CLEARING and PREPARED stay; SEALED blocks as FULL under STOP, as HELD under a hold, and is reclaimed otherwise.
HOLD_FLOOR_REPORT (R30): the report is the hold floor, and preparation is retried while the journal is READY. Reclamation of
the head segment (R28): the segment after it is the head, one segment fewer is used, the COMMITTED records lost are counted,
the CU is told the first numbers of the head segment before and after, a control block write is requested and the clearing
starts. A scan in the reclaimed segment is in one that has left journal order (R122; log 41). The head sequence is the
number in the head segment's header, or the tail sequence when the journal holds no record (R15, R20, R100); what it is for
a head segment that holds none, or with numbering exhausted, is the model's reading (log 40). -/
def Obligations.PreparationAndReclamation : Prop :=
  (∀ s : State,
    let g := s.js.filling + 1
    let st := (s.js.index[g]).state
    let held : Bool := match s.js.holdFloor with
      | some f => f < headerFirst s.mem (g + 1)
      | none => false
    (st = .free → prepare s = { s with js := { s.js with
        blocked := .clear, clearing := some g, index := s.js.index.set g (IndexEntry.empty .clearing) } }) ∧
    ((st = .clearing ∨ st = .prepared) → prepare s = { s with js := { s.js with blocked := .clear } }) ∧
    (st = .sealed → s.js.policy = .stop → prepare s = { s with js := { s.js with blocked := .full } }) ∧
    (st = .sealed → s.js.policy = .wrap → held = true → prepare s = { s with js := { s.js with blocked := .held } }) ∧
    (st = .sealed → s.js.policy = .wrap → held = false →
      prepare s = { reclaim s with js := { (reclaim s).js with blocked := .clear } }) ∧
    ∀ (f : Option Nat) (rest : List (Option Nat)), s.js.floorReports = f :: rest →
      let t := { s with js := { s.js with holdFloor := f, floorReports := rest } }
      exec .holdFloorReport s = .next (if s.js.journal = .ready then prepare t else t)) ∧
  (∀ s : State,
    let g := s.js.head
    let t := reclaim s
    t.js.head = g + 1 ∧ t.js.used = s.js.used - 1 ∧ t.js.clearing = some g ∧
      t.js.index = s.js.index.set g (IndexEntry.empty .clearing) ∧
      t.js.reclaimed = min (s.js.reclaimed + (s.js.index[g]).count) 4294967295 ∧
      t.cu = { s.cu with
        reclaims := s.cu.reclaims ++ [{ seg := g, oldHead := headerFirst s.mem g, newHead := headerFirst s.mem (g + 1), seenBy := [] }]
        slot := s.cu.slot.map (fun x =>
          { x with scan := x.scan.map (fun sc => { sc with left := sc.left || sc.seg == g }) }) } ∧
      (s.js.copyWrite.isSome = true → t.js.copyPending = true ∧ t.js.copyWrite = s.js.copyWrite) ∧
      (s.js.copyWrite = none → t.js.copyWrite.isSome = true ∧ t.js.copyPending = s.js.copyPending) ∧
      t.mem = s.mem ∧ t.au = s.au ∧ t.hp = s.hp ∧ t.cp = s.cp ∧ t.tb = s.tb ∧ t.wu = s.wu ∧ t.pc = s.pc ∧
      t.copyA = s.copyA ∧ t.copyB = s.copyB) ∧
  ∀ s : State,
    let g (k : Nat) : Seg := s.js.head + Fin.ofNat 64 k
    let holds (k : Nat) : Prop := placeState s.mem (g k) 1 ≠ .free
    (∀ k, k < s.js.used → k < 64 → holds k → headSeq s = headerFirst s.mem s.js.head) ∧
    ((∀ k, k < s.js.used → k < 64 → ¬ holds k) → headSeq s = tailSeq s)

/-- A control block write begins (R36) to the copy not written last, with the next generation modulo 2^32 and the values as
they stand; a request during a write sets the pending flag (R37). CONTROL_BLOCK_WRITE_END stores the copy whole, answers the
SET_POLICY that waits for it (R39), and with the pending flag set begins one further write.
The DONE of the commands that wait for a control block write (R37, R39, R44 step 11, R152, R153). When a write ends in
RUN with nothing waiting to follow it, a FORMAT whose FORMATTED has ended, a CAPTURE_SET and a NODE_SET that wait for this
write answer DONE and their slots are free; that the JS's DONE is posted before the CP's is the model's choice (log 38). A
FORMAT whose FORMATTED has not ended goes on waiting for it, and answers when it is committed; one whose write is still to
come keeps its slot then. A command that waits for the next write waits for the one that now begins. -/
def Obligations.ControlBlockWritesAlternate : Prop :=
  ((∀ s : State,
    let values : ControlCopy :=
      { generation := (s.js.lastGeneration + 1) % 4294967296, head := s.js.head, filling := s.js.filling,
        policy := s.js.policy, mark := s.js.mark, hint := s.au.nextSeq.sent, captureOn := s.cp.enabled,
        rate := s.cp.rate, gap := s.cp.gap, window := s.cp.window,
        nodes := s.cp.nodes.map (fun n => { enabled := n.enabled, classes := n.classes }), checkOk := true }
    let target : CopyId := if s.js.lastCopy = .a then .b else .a
    (s.js.copyWrite.isSome = true → requestCopy s = { s with js := { s.js with copyPending := true } }) ∧
    (s.js.copyWrite = none →
      requestCopy s = { s with js := { s.js with copyWrite := some { target := target, values := values } } })) ∧
  ∀ (s : State) (w : CopyWrite) (e : Entry), s.js.copyWrite = some w → s.pc.supply = .run →
    s.js.slot = some { entry := e, phase := .policyWait .thisWrite } → s.cp.slot = none → s.pc.step = .idle →
    ∃ t, exec .controlBlockWriteEnd s = .next t ∧
      t.copyA = (if w.target = .a then w.values else s.copyA) ∧
      t.copyB = (if w.target = .b then w.values else s.copyB) ∧
      t.js.lastCopy = w.target ∧ t.js.lastGeneration = w.values.generation ∧ t.js.slot = none ∧
      t.hp = s.hp.post (Response.plain e.tag .done []) ∧ t.js.copyPending = false ∧
      (s.js.copyPending = false → t.js.copyWrite = none) ∧
      (s.js.copyPending = true → ∃ v : CopyWrite, t.js.copyWrite = some v ∧ v.target ≠ w.target ∧
        v.values.generation = (w.values.generation + 1) % 4294967296) ∧
      t = { s with copyA := t.copyA, copyB := t.copyB, hp := t.hp, js := { s.js with
        lastCopy := t.js.lastCopy, lastGeneration := t.js.lastGeneration, slot := none, copyPending := false,
        copyWrite := t.js.copyWrite } }) ∧
  (∀ (s : State) (w : CopyWrite), s.js.copyWrite = some w → s.pc.supply = .run → s.pc.step = .idle →
    let done (e : Entry) (h : Hp) : Hp := h.post (Response.plain e.tag .done [])
    let ended (js : Option JsSlot) (cp : Option CpSlot) (hp : Hp) : State :=
      { s with
        copyA := if w.target = .a then w.values else s.copyA, copyB := if w.target = .b then w.values else s.copyB
        js := { s.js with
          copyWrite := none, lastCopy := w.target, lastGeneration := w.values.generation, slot := js }
        cp := { s.cp with slot := cp }, hp := hp }
    (s.js.copyPending = false →
      (∀ e, s.js.slot = some { entry := e, phase := .formatEnding true (some .thisWrite) } → s.cp.slot = none →
        exec .controlBlockWriteEnd s = .next (ended none none (done e s.hp))) ∧
      (∀ e, s.js.slot = some { entry := e, phase := .formatEnding false (some .thisWrite) } → s.cp.slot = none →
        exec .controlBlockWriteEnd s = .next (ended (some { entry := e, phase := .formatEnding false none }) none s.hp)) ∧
      (∀ x, s.js.slot = none → s.cp.slot = some { entry := x, phase := .writeWait .thisWrite } →
        exec .controlBlockWriteEnd s = .next (ended none none (done x s.hp))) ∧
      (∀ e x, (s.js.slot = some { entry := e, phase := .policyWait .thisWrite } ∨
          s.js.slot = some { entry := e, phase := .formatEnding true (some .thisWrite) }) →
        s.cp.slot = some { entry := x, phase := .writeWait .thisWrite } →
        exec .controlBlockWriteEnd s = .next (ended none none (done x (done e s.hp))))) ∧
    (s.js.copyPending = true → ∀ e x, s.js.slot = some { entry := e, phase := .policyWait .nextWrite } →
      s.cp.slot = some { entry := x, phase := .writeWait .nextWrite } →
      ∃ t, exec .controlBlockWriteEnd s = .next t ∧ t.hp = s.hp ∧ t.js.copyPending = false ∧
        t.js.copyWrite.isSome = true ∧ t.js.slot = some { entry := e, phase := .policyWait .thisWrite } ∧
        t.cp.slot = some { entry := x, phase := .writeWait .thisWrite })) ∧
  ∀ (s : State) (r : InProgress) (e : Entry) (w : Option CopyWait) (b : Bool), s.au.record = some r →
    r.origin = .system .formatted → r.phase = .writing → s.au.holdup = .idle → s.au.formatAsked = false →
    s.js.slot = some { entry := e, phase := .formatEnding b w } →
    ∃ t, exec .writeStepEnd s = .next t ∧ t.au = { s.au with record := none } ∧ t.pc = s.pc ∧ t.tb = s.tb ∧ t.cp = s.cp ∧
      t.js.slot = (if w = none then none else some { entry := e, phase := .formatEnding true w }) ∧
      t.hp = if w = none then s.hp.post (Response.plain e.tag .done []) else s.hp

/-- Of two copies, which is the later (R38). -/
def Obligations.LaterCopyByGeneration : Prop :=
  ∀ a b : ControlCopy, a.generation < 4294967296 → b.generation < 4294967296 →
    let less (x y : Nat) : Nat := (x + 4294967296 - y) % 4294967296
    (1 ≤ less a.generation b.generation ∧ less a.generation b.generation ≤ 2147483647 → laterCopy a b = .a) ∧
    (1 ≤ less b.generation a.generation ∧ less b.generation a.generation ≤ 2147483647 → laterCopy a b = .b) ∧
    (a.generation = b.generation → laterCopy a b = .b) ∧
    (less a.generation b.generation = 2147483648 → laterCopy a b = .b) ∧
    ((less a.generation b.generation = 1 → laterCopy a b = .a) ∧ (less b.generation a.generation = 1 → laterCopy a b = .b))

/-- SET_POLICY (R39): bad values are refused; otherwise policy and mark are taken, a control block write is requested,
preparation is retried while the journal is READY, and the command waits for the write that carries the change.
JOURNAL_STATUS (R40) and SEGMENT_INFO (R41) answer at once and change nothing else. -/
def Obligations.JournalCommandsAnswer : Prop :=
  ∀ (s : State) (e : Entry), s.js.slot = some { entry := e, phase := .dispatched } →
    let answers (r : Result) (fields : List Byte) : Host.Outcome State Fault Refusal := .next
      { s with js := { s.js with slot := none }, hp := s.hp.post (Response.plain e.tag r fields) }
    (e.opcode = 0x21 → 1 < e.param 0 ∨ e.param 1 < 1 ∨ 64 < e.param 1 ∨ e.payload ≠ [] →
      exec .setPolicy s = answers .badParam []) ∧
    (e.opcode = 0x21 → e.param 0 ≤ 1 → 1 ≤ e.param 1 → e.param 1 ≤ 64 → e.payload = [] →
      let t := requestCopy
        { s with js := { s.js with
          policy := if e.param 0 = 0 then .wrap else .stop
          mark := e.param 1
          slot := some { entry := e
                         phase := .policyWait (if s.js.copyWrite.isSome then .nextWrite else .thisWrite) } } }
      exec .setPolicy s = .next (if s.js.journal = .ready then prepare t else t)) ∧
    (e.opcode = 0x22 → e.payload = [] → exec .journalStatus s = answers .done
      ([byte s.js.journal.code, byte s.js.policy.code, byte s.js.mark, byte s.js.head.val, byte s.js.filling.val,
        byte s.js.used, byte ((s.js.index[s.js.filling + 1]).state.code + 16 * s.js.blocked.code)]
        ++ be32 s.js.reclaimed ++ be16 s.au.systemLost)) ∧
    (e.opcode = 0x22 → e.payload ≠ [] → exec .journalStatus s = answers .badParam []) ∧
    (e.opcode = 0x23 → 63 < e.param 0 ∨ 2 < e.param 1 ∨ e.payload ≠ [] → exec .segmentInfo s = answers .badParam []) ∧
    ∀ g : Seg, e.opcode = 0x23 → e.param 0 = g.val → e.payload = [] →
      let x := s.js.index[g]
      (e.param 1 = 0 → exec .segmentInfo s = answers .done
        ([byte x.state.code, byte x.count, byte (x.first.isSome.toNat + 2 * x.last.isSome.toNat)]
          ++ be32 (x.first.getD 0) ++ be32 (x.last.getD 0))) ∧
      (e.param 1 = 1 → exec .segmentInfo s = answers .done
        (be16 x.classes.toNat ++ [byte x.sources.toNat, x.nodes, byte x.unset.toNat] ++ be32 (headerFirst s.mem g))) ∧
      (e.param 1 = 2 → exec .segmentInfo s = answers .done
        ([byte (x.minStamp.isSome.toNat + 2 * x.maxStamp.isSome.toNat)]
          ++ (x.minStamp.getD { seconds := 0, ticks := 0 }).bytes ++ (x.maxStamp.getD { seconds := 0, ticks := 0 }).bytes))

/-- FORMAT's first phase (R42, R63): with no record in progress the arbiter is paused at once and the JS is told; with one,
the AU is asked and goes on to its end; a bad option or a payload is refused (R199). AU_STOPPED (R42, R43, R127): the
command that is scanning answers CLOSED with its losses, those it still owes being reported with it (R123), and each parked
fetch answers CLOSED, in rising cursor number (the order is the model's choice, log 37; that the CLOSED of the scan reports
what it still owes, and that of a parked fetch carries LOST, are its inferences, logs 15 and 20); every cursor is CLOSED
with its hold off and its window kept, OPEN is refused, the hold floor is absent without a retry of preparation (the model's
choice, log 36) and reports on their way are dropped (its inference, log 29), the journal is FORMATTING, all 64 segments are
CLEARING with empty entries, and the clearing of segment 0 starts; of a clearing in progress the upper `z` units are zeroed,
the sender saying how many (the model's choice, log 10). -/
def Obligations.FormatStopsAndClears : Prop :=
  ∀ (s : State) (e : Entry),
    (s.js.slot = some { entry := e, phase := .dispatched } → e.opcode = 0x20 →
      (1 < e.param 0 ∨ e.payload ≠ [] → exec .format s = .next
        { s with js := { s.js with slot := none }, hp := s.hp.post (Response.plain e.tag .badParam []) }) ∧
      (e.param 0 ≤ 1 → e.payload = [] → s.au.record = none → exec .format s = .next
        { s with
          au := { s.au with paused := true }
          js := { s.js with slot := some { entry := e, phase := .formatStopping }, auStopped := true } }) ∧
      (e.param 0 ≤ 1 → e.payload = [] → s.au.record ≠ none → exec .format s = .next
        { s with
          au := { s.au with formatAsked := true }
          js := { s.js with slot := some { entry := e, phase := .formatStopping } } })) ∧
    ∀ z : Nat, s.js.auStopped = true → s.js.slot = some { entry := e, phase := .formatStopping } →
      let parked : List Response := (fins 4).flatMap (fun c =>
        if (s.cu.cursors[c]).state = .parked then
          ((s.cu.cursors[c]).fetchTag.map (fun tag => Response.bare tag .closed (s.cu.cursors[c]).fetchLost)).toList
        else [])
      let formatting (u : Cu) (hp : Hp) : Host.Outcome State Fault Refusal := .next
        { s with
          js := { s.js with
            auStopped := false, holdFloor := none, floorReports := [], journal := .formatting, used := 0, head := 0,
            filling := 0, index := Vector.replicate 64 (IndexEntry.empty .clearing), clearing := some 0
            slot := some (JsSlot.mk e (.formatClearing ((s.js.usedSegs.map (fun g => (s.js.index[g]).count)).sum))) }
          cu := { u with
            noOpen := true
            cursors := u.cursors.map (fun c =>
              { c with state := .closed, hold := false, fetchTag := none, fetchLost := false, beatsLeft := none }) }
          hp := parked.foldl (fun h r => h.post r) hp
          mem := match s.js.clearing with
            | some g => s.mem.zero (g.val * 2048 + (256 - z) * 8) ((256 - (256 - z)) * 8)
            | none => s.mem }
      ((∀ x, s.cu.slot = some x → x.scan = none) → exec (.auStopped z) s = formatting s.cu s.hp) ∧
      ∀ (x : Entry) (sc : Scan), s.cu.slot = some { entry := x, scan := some sc } →
        let c := s.cu.cursors[sc.cursor]
        exec (.auStopped z) s = formatting
          { s.cu with
            slot := none
            cursors := s.cu.cursors.set sc.cursor { c with lost := min (c.lost + sc.owed) 4294967295 } }
          (Hp.post (Response.bare x.tag .closed (sc.skipped + sc.owed != 0))
            (if sc.owed = 0 then s.hp else { s.hp with events := s.hp.events ||| 0x20 }))

/-- CLEARING_END (R27): the whole segment is zeroed and PREPARED, and no byte outside it changes. An append that waits opens
it (R55). During FORMAT the next segment's clearing starts until segment 63's has ended (R43). -/
def Obligations.ClearingEndPreparesSegment : Prop :=
  ∀ (s : State) (g : Seg), s.js.clearing = some g → s.pc.supply ≠ .coldInit →
    let cleared := s.mem.zero (g.val * 2048) 2048
    let t := { s with
      js := { s.js with clearing := none, index := s.js.index.set g (IndexEntry.empty .prepared) }, mem := cleared }
    (s.js.journal ≠ .formatting → s.au.record = none → exec .clearingEnd s = .next t) ∧
    (∀ r, s.js.journal ≠ .formatting → s.au.record = some r → exec .clearingEnd s = .next
      (if r.phase = .waitingClear then openAndWrite r t else t)) ∧
    (∀ (e : Entry) (n : Nat), s.js.journal = .formatting → s.js.slot = some { entry := e, phase := .formatClearing n } →
      g.val < 63 → exec .clearingEnd s = .next { t with js := { t.js with clearing := some (g + 1) } }) ∧
    (∀ a, a < g.val * 2048 ∨ g.val * 2048 + 2048 ≤ a → s.mem.wf = true → cleared.read a = s.mem.read a) ∧
    (∀ a, g.val * 2048 ≤ a → a < g.val * 2048 + 2048 → s.mem.wf = true → cleared.read a = 0)

/-- FORMAT's third phase, at the end of segment 63's clearing (R44), made whole in that happening (log 31): segment 0 opened
with first sequence number 0, numbering restarted under RENUMBER, every watermark absent, FORMATTED at the front of the
system lane (a full lane loses its last request, counted and with LOST, R62, R63), the arbiter running and the journal
READY. FORMAT waits for the control block write that carries the open: the one now begun, or with a write in progress the
one after it (R37). Notices of the old journal on their way to the CU are dropped, and those on their way to the CP move no
watermark; both are the model's inferences (log 18). -/
def Obligations.FormatEndsWithANewJournal : Prop :=
  ∀ (s : State) (e : Entry) (n : Nat), s.js.clearing = some 63 → s.pc.supply ≠ .coldInit → s.js.journal = .formatting →
    s.js.slot = some { entry := e, phase := .formatClearing n } → s.js.used = 0 → s.js.head = 0 → s.js.filling = 0 →
    (s.js.index[1]).state = .prepared →
    let full : Bool := 4 ≤ s.au.systemLane.length
    let writing : Bool := s.js.copyWrite.isSome
    ∃ t, exec .clearingEnd s = .next t ∧ t.js.journal = .ready ∧ t.js.head = 0 ∧ t.js.filling = 0 ∧
      t.js.used = 1 ∧ t.js.index[0] = IndexEntry.empty .filling ∧ t.js.blocked = .clear ∧ t.js.reclaimed = 0 ∧
      t.mem = (s.mem.zero (63 * 2048) 2048).writeCells (cellsAt 0 (segHeader .filling 0)) ∧
      t.au = { s.au with
        fillPoint := 1, paused := false
        nextSeq := if e.param 0 = 1 then .value 1 else s.au.nextSeq
        systemLost := if full then min (s.au.systemLost + 1) 65535 else s.au.systemLost
        systemLane := { kind := .formatted, payload := [1, byte (if e.param 0 = 1 then 1 else 0)] ++ be32 n }
          :: s.au.systemLane.take 3 } ∧
      (∀ k : Fin 8, t.cp.nodes[k] = { s.cp.nodes[k] with committedSeq := none }) ∧
      t.cp = { s.cp with nodes := t.cp.nodes, notices := s.cp.notices.map (fun x => { x with oldJournal := true }) } ∧
      t.js.slot = some { entry := e, phase := .formatEnding false (some (if writing then .nextWrite else .thisWrite)) } ∧
      t.js.copyPending = true ∧ t.js.copyWrite.isSome = true ∧ (writing = true → t.js.copyWrite = s.js.copyWrite) ∧
      t.cu = { s.cu with noOpen := false, notices := [], reclaims := [] } ∧
      t.hp = { s.hp with
        events := s.hp.events ||| (if s.js.mark = 1 then 0x10 else 0) ||| (if full then 0x20 else 0) } ∧
      t.tb = s.tb ∧ t.wu = s.wu ∧ t.pc = s.pc ∧ t.copyA = s.copyA ∧ t.copyB = s.copyB

/-! ## The Append Unit -/

/-- ARBITER_CHOICE (R50): the front system request first; with both other lanes waiting the one not served last; with one
waiting that one; with none, or with the arbiter paused, nothing. Beside the AU only the place of the record and the segment
header are written, and for a capture record its resolution in the slot. -/
def Obligations.ArbiterAlternates : Prop :=
  ∀ (s : State) (n : Nat), s.au.record = none → s.au.nextSeq = .value n →
    let waits := s.au.hostLane.find? (fun p => p.state == .waiting)
    let h := s.js.filling.val * 2048
    let x := h + s.au.fillPoint * 8
    let kept (t : State) (r : InProgress) : Prop :=
      ∀ a, ¬ (x ≤ a ∧ a < x + 24 + r.data.payload.length) → ¬ (h ≤ a ∧ a < h + 8) → t.mem.read a = s.mem.read a
    (s.au.paused = true → exec .arbiterChoice s = .next s) ∧
    (s.au.systemLane = [] → waits = none → captureOffer s.cp = none → exec .arbiterChoice s = .next s) ∧
    (s.au.paused = false →
      (∀ q qs, s.au.systemLane = q :: qs → ∃ t r, exec .arbiterChoice s = .next t ∧ t.au.record = some r ∧
        r.origin = .system q.kind ∧ r.data.payload = q.payload ∧ t.au.systemLane = qs ∧
        t.au.lastServed = s.au.lastServed ∧ t = { s with au := t.au, mem := t.mem } ∧ kept t r) ∧
      (∀ p, s.au.systemLane = [] → waits = some p → (captureOffer s.cp = none ∨ s.au.lastServed = .capture) →
        ∃ t r, exec .arbiterChoice s = .next t ∧ t.au.record = some r ∧ r.origin = .host p.entry.tag ∧
          r.data.payload = p.entry.payload ∧ t.au.lastServed = .host ∧ t = { s with au := t.au, mem := t.mem } ∧ kept t r) ∧
      (∀ i k b, s.au.systemLane = [] → captureOffer s.cp = some (i, k) → s.cp.slots[i] = some b →
        (waits = none ∨ s.au.lastServed = .host) →
        ∃ t r, exec .arbiterChoice s = .next t ∧ t.au.record = some r ∧ r.origin = .capture i k ∧
          t.au.lastServed = .capture ∧ kept t r ∧
          t = { s with
            au := t.au, mem := t.mem
            cp := { s.cp with slots := s.cp.slots.set i (some { b with
              records := b.records.modify k (fun y => { y with res := .inAppend }) }) } }))

/-- ARBITER_CHOICE on a host record that fits (R53, R56, R57, R24): it takes the next number and the TB's time; its header
with state OPEN and both checks 0000h, then its payload, are written at the fill point, the segment header being rewritten
first when the record begins at unit 1 and the header holds another number; every other byte of memory is as it was. -/
def Obligations.HostRecordWritten : Prop :=
  ∀ (s : State) (e : Entry) (rest : List HostPlace) (n : Nat), s.mem.wf = true → s.au.paused = false →
    s.au.record = none → s.au.nextSeq = .value n → s.au.systemLane = [] →
    s.au.hostLane = { entry := e, state := .waiting } :: rest →
    (captureOffer s.cp = none ∨ s.au.lastServed = .capture) → e.param 0 < 12 →
    let u := s.au.fillPoint
    let g := s.js.filling
    let len := e.payload.length
    let size := 3 + (len + 7) / 8
    let x := g.val * 2048 + u * 8
    let bytes : List Byte :=
      [0x3C, byte size, byte len, byte (e.param 0 + 128 * (!s.tb.isSet).toNat), 0xFF, 0x00] ++ be16 0 ++ be32 n
        ++ be32 s.tb.seconds ++ be16 s.tb.ticks ++ be16 0 ++ be16 0 ++ be16 0 ++ e.payload
    let rewrite : Bool := u == 1 && headerFirst s.mem g != n
    1 ≤ u → u + size ≤ 256 → len ≤ 232 →
    ∃ t r, exec .arbiterChoice s = .next t ∧ t = { s with au := t.au, mem := t.mem } ∧
      t.au = { s.au with
        hostLane := { entry := e, state := .inProgress } :: rest, lastServed := .host, fillPoint := u + size
        nextSeq := if n = 4294967295 then .exhausted else .value (n + 1), record := some r } ∧
      r.origin = .host e.tag ∧ r.phase = .writing ∧ r.seq = n ∧ r.seg = g ∧ r.unit = u ∧
      ∀ a, t.mem.read a =
        if x ≤ a ∧ a < x + 24 + len then bytes.getD (a - x) 0
        else if rewrite ∧ g.val * 2048 ≤ a ∧ a < g.val * 2048 + 8 then (segHeader .filling n).getD (a - g.val * 2048) 0
        else s.mem.read a

/-- NEXT_SEGMENT_REQUEST on a PREPARED segment (R23, R25, R54): it becomes FILLING and the old one SEALED, one segment more
is used, both headers are written, HIGH is latched exactly when the used count reaches the mark, a control block write is
requested and the segment after it is prepared, whatever its state (R26). The record is then numbered, stamped and written
at unit 1 of the new segment: its header with state OPEN and both checks 0000h, and its payload (R56, R57); the fill point
is the unit after it, and no other byte changes. -/
def Obligations.NextSegmentOpens : Prop :=
  ∀ (s : State) (r : InProgress) (n : Nat), s.mem.wf = true → s.au.record = some r → r.phase = .requesting →
    s.au.nextSeq = .value n → n < 4294967296 → r.data.payload.length ≤ 232 →
    let f := s.js.filling
    let g := f + 1
    let len := r.data.payload.length
    let size := 3 + (len + 7) / 8
    let d : Record := if r.data.source = .capture then r.data
      else { r.data with stamp := { seconds := s.tb.seconds, ticks := s.tb.ticks }, unset := !s.tb.isSet }
    let bytes : List Byte :=
      [0x3C, byte size, byte len, byte (d.cls % 16 + 16 * d.source.code + 128 * d.unset.toNat), byte d.node, byte d.nodeSeq]
        ++ be16 0 ++ be32 n ++ be32 d.stamp.seconds ++ be16 d.stamp.ticks ++ be16 d.age ++ be16 0 ++ be16 0 ++ d.payload
    let opened : State :=
      { s with
        mem := s.mem.writeCells (cellsAt (g.val * 2048) (segHeader .filling n)
          ++ cellsAt (f.val * 2048) (segHeader .sealed (headerFirst s.mem f)))
        js := { s.js with
          filling := g, used := s.js.used + 1
          index := (s.js.index.set f { s.js.index[f] with state := .sealed }).set g (IndexEntry.empty .filling) }
        au := { s.au with fillPoint := 1 }
        hp := if s.js.used + 1 = s.js.mark then { s.hp with events := s.hp.events ||| 0x10 } else s.hp }
    let ready := prepare (requestCopy opened)
    (s.js.index[g]).state = .prepared →
    ∃ t q, exec .nextSegmentRequest s = .next t ∧
      t = { ready with
        mem := t.mem
        au := { s.au with
          fillPoint := 1 + size, nextSeq := if n = 4294967295 then .exhausted else .value (n + 1), record := some q } } ∧
      q.data = d ∧ q.origin = r.origin ∧ q.phase = .writing ∧ q.seq = n ∧ q.seg = g ∧ q.unit = 1 ∧
      ∀ a, t.mem.read a =
        if g.val * 2048 ≤ a ∧ a < g.val * 2048 + 8 then (segHeader .filling n).getD (a - g.val * 2048) 0
        else if f.val * 2048 ≤ a ∧ a < f.val * 2048 + 8 then
          (segHeader .sealed (headerFirst s.mem f)).getD (a - f.val * 2048) 0
        else if g.val * 2048 + 8 ≤ a ∧ a < g.val * 2048 + 32 + len then bytes.getD (a - (g.val * 2048 + 8)) 0
        else s.mem.read a

/-- NEXT_SEGMENT_REQUEST that does not open a segment (R54, R60): a host, system or capture record waits for a clearing in
progress, one that preparation starts, or one that a reclamation starts; a host record is refused JOURNAL_FULL under STOP
and HELD under a hold, taking no number. What the refusal of another record does, other statements say. -/
def Obligations.NextSegmentWaitsOrRefuses : Prop :=
  ∀ (s : State) (r : InProgress), s.au.record = some r → r.phase = .requesting →
    let st := (s.js.index[s.js.filling + 1]).state
    let waiting (t : State) : State := { t with au := { t.au with record := some { r with phase := .waitingClear } } }
    (st = .clearing → exec .nextSegmentRequest s = .next (waiting s)) ∧
    (st = .free → exec .nextSegmentRequest s = .next (waiting (prepare s))) ∧
    (st = .sealed → s.js.policy = .wrap → nextHeld s = false →
      exec .nextSegmentRequest s = .next (waiting (prepare s))) ∧
    ∀ tag : Byte, r.origin = .host tag → s.au.holdup = .idle → s.au.formatAsked = false →
      let refused (code : Result) : State :=
        { s with
          au := { s.au with record := none, hostLane := s.au.hostLane.filter (fun p => p.state != .inProgress) }
          hp := s.hp.post (Response.plain tag code []) }
      (st = .sealed → s.js.policy = .stop → exec .nextSegmentRequest s = .next (refused .journalFull)) ∧
      (st = .sealed → s.js.policy = .wrap → nextHeld s = true → exec .nextSegmentRequest s = .next (refused .held))

/-- WRITE_STEP_END (R4, R33, R58, R59): state COMMITTED and the two checks are written and no other byte; the record joins
its segment's index entry; the CU and the WU get the commit notice with all its fields; for a host record COMMITTED is
posted and the lane place is free, for a capture record the CP gets the notice with its slot and place, for a TIME_SET or
SILENT record nobody else is told; the append has ended. What else follows a FORMATTED, RECOVERED, COLD_START or POWER_DOWN
record, and what a FORMAT or a hold-up that waits for the end of the append does then, other statements say. -/
def Obligations.CommitEndsAppend : Prop :=
  ∀ (s : State) (r : InProgress), s.mem.wf = true → s.au.record = some r → r.phase = .writing →
    r.unit ≤ 253 → s.au.holdup = .idle → s.au.formatAsked = false →
    let x := r.seg.val * 2048 + r.unit * 8
    let pc := r.data.payloadCheck
    let hc := r.data.headerCheck r.seq
    let notice : Notice :=
      { seq := r.seq, cls := r.data.cls, source := r.data.source, node := r.data.node, nodeSeq := r.data.nodeSeq,
        stamp := r.data.stamp, unset := r.data.unset, key := keyOf r.data.payload, len := r.data.payload.length,
        seg := r.seg, unit := r.unit }
    let committed (m : Memory) : State := { s with
      mem := m
      js := { s.js with index := s.js.index.set r.seg ((s.js.index[r.seg]).add r.seq r.data.stamp r.data.cls
        r.data.source.code r.data.node r.data.unset) }
      cu := { s.cu with notices := s.cu.notices ++ [notice] }
      wu := { s.wu with notices := s.wu.notices ++ [notice] }
      au := { s.au with record := none } }
    let written (m : Memory) : Prop := ∀ a, m.read a =
      if a = x then 0xC3 else if a = x + 6 then byte (pc / 256) else if a = x + 7 then byte pc
      else if a = x + 20 then byte (hc / 256) else if a = x + 21 then byte hc else s.mem.read a
    (∀ tag : Byte, r.origin = .host tag → ∃ m, written m ∧ exec .writeStepEnd s = .next
      { committed m with
        au := { s.au with record := none, hostLane := s.au.hostLane.filter (fun p => p.state != .inProgress) }
        hp := s.hp.post (Response.plain tag .committed (be32 r.seq ++ be32 r.data.stamp.seconds ++ be16 r.data.stamp.ticks)) }) ∧
    (∀ (i : Fin 2) (k : Nat), r.origin = .capture i k → ∃ m, written m ∧ exec .writeStepEnd s = .next
      { committed m with cp := { s.cp with
        notices := s.cp.notices ++ [{ notice := notice, slot := i, place := k, oldJournal := false }] } }) ∧
    (r.origin = .system .timeSet ∨ r.origin = .system .silent →
      ∃ m, written m ∧ exec .writeStepEnd s = .next (committed m))

/-- What waits for the end of an append. RECOVERED in RECOVER and COLD_START in COLD_INIT, committed or refused (then
counted lost with LOST): the J64 enters RUN (R177, R194, R197) with the journal READY, READY latched, the HP online with no
open transaction, no reject reason and no unknown ports, and the receiver by its setting; in COLD_INIT the latch is cleared
and a control block write requested; with PFI low it goes on as if PFI fell in that RUN (R181). When the HP's values of R160
are taken, and that the WU's notices end here, are the model's inferences (logs 21, 24, 39). A FORMAT that waits has the
arbiter paused and the JS told (R63). A hold-up that waits closes the AU (R64, R183): the lanes are discarded and POWER_DOWN
begins its write with the number of records discarded, or nothing is written while FORMATTING or exhausted. POWER_DOWN's own
append ends the AU's part; refused, it is not counted (R64). -/
def Obligations.AppendEndStartsWhatWaits : Prop :=
  let restart (o : Origin) : Prop := o = .system .recovered ∨ o = .system .coldStart
  let committed (s : State) (r : InProgress) : State :=
    let notice : Notice :=
      { seq := r.seq, cls := r.data.cls, source := r.data.source, node := r.data.node, nodeSeq := r.data.nodeSeq,
        stamp := r.data.stamp, unset := r.data.unset, key := keyOf r.data.payload, len := r.data.payload.length,
        seg := r.seg, unit := r.unit }
    { s with
      mem := s.mem.writeCells (commitCells (r.seg.val * 2048 + r.unit * 8) r.data r.seq)
      js := { s.js with index := s.js.index.set r.seg ((s.js.index[r.seg]).add r.seq r.data.stamp r.data.cls
        r.data.source.code r.data.node r.data.unset) }
      cu := { s.cu with notices := s.cu.notices ++ [notice] }
      wu := { s.wu with notices := s.wu.notices ++ [notice] }
      au := { s.au with record := none } }
  let lost (s : State) : State :=
    { s with
      au := { s.au with record := none, systemLost := min (s.au.systemLost + 1) 65535 }
      hp := { s.hp with events := s.hp.events ||| 0x20 } }
  let running (s : State) : State :=
    let u := if s.pc.supply = .coldInit then requestCopy s else s
    { u with
      pc := { u.pc with supply := .run, latch := if s.pc.supply = .coldInit then false else u.pc.latch }
      js := { u.js with journal := .ready }
      hp := { u.hp with
        offline := false, reject := .noReject, lastAccepted := false, unknownPorts := 0, tx := none
        events := u.hp.events ||| 0x40 }
      wu := { u.wu with notices := [] }
      cp := { u.cp with receiver := if u.cp.enabled then .waitIdle else .disabled } }
  let entersRun (x : Host.Outcome State Fault Refusal) (s : State) : Prop :=
    (s.pc.pfiLow = false → x = .next (running s)) ∧ (s.pc.pfiLow = true → x = exec (.holdup (.falls 0)) (running s))
  (∀ s : State, (s.pc.supply = .recover ∨ s.pc.supply = .coldInit) → s.au.holdup = .idle → s.au.formatAsked = false →
    (∀ r, s.au.record = some r → restart r.origin → r.phase = .writing → entersRun (exec .writeStepEnd s) (committed s r)) ∧
    (∀ r, s.au.record = some r → restart r.origin → r.phase = .requesting →
      (s.js.index[s.js.filling + 1]).state = .sealed → (s.js.policy = .stop ∨ nextHeld s = true) →
      entersRun (exec .nextSegmentRequest s) (lost s)) ∧
    ∀ q qs, s.au.record = none → s.au.paused = false → s.au.nextSeq = .exhausted → s.au.systemLane = q :: qs →
      restart (.system q.kind) →
      entersRun (exec .arbiterChoice s) (lost { s with au := { s.au with systemLane := qs } })) ∧
  (∀ (s : State) (r : InProgress), s.au.record = some r → r.phase = .writing → ¬ restart r.origin →
    r.origin ≠ .system .powerDown →
    (s.au.holdup = .idle → s.au.formatAsked = true →
      ∃ t, exec .writeStepEnd { s with au := { s.au with formatAsked := false } } = .next t ∧
        exec .writeStepEnd s = .next
          { t with au := { t.au with paused := true }, js := { t.js with auStopped := true } }) ∧
    (s.au.holdup = .asked →
      let discarded := s.au.systemLane.length + (s.au.hostLane.filter (fun p => p.state == .waiting)).length + s.pc.discarded
      ∃ t, exec .writeStepEnd s = .next t ∧ t.au.systemLane = [] ∧ t.au.hostLane = [] ∧ t.au.paused = true ∧
        (∀ n, s.js.journal = .ready → s.au.nextSeq = .value n → s.au.fillPoint ≤ 252 →
          t.au.holdup = .powerDown ∧ t.pc = s.pc ∧ ∃ q, t.au.record = some q ∧ q.origin = .system .powerDown ∧
            q.phase = .writing ∧ q.seq = n ∧ q.unit = s.au.fillPoint ∧ q.data.payload = [3, 0] ++ be16 discarded) ∧
        (s.js.journal = .formatting ∨ (s.js.journal = .ready ∧ s.au.nextSeq = .exhausted) →
          t.au.holdup = .ended ∧ t.pc = { s.pc with step := .auEnded } ∧ t.au.record = none))) ∧
  ∀ (s : State) (r : InProgress), s.au.record = some r → r.origin = .system .powerDown →
    let ended (t : State) : State :=
      { t with au := { t.au with record := none, holdup := .ended }, pc := { t.pc with step := .auEnded } }
    (r.phase = .writing → exec .writeStepEnd s = .next (ended (committed s r))) ∧
    (r.phase = .requesting → (s.js.index[s.js.filling + 1]).state = .sealed →
      (s.js.policy = .stop ∨ nextHeld s = true) → exec .nextSegmentRequest s = .next (ended s))

/-- Refusals at the checks, with numbering exhausted (R14, R53, R60): a host record is answered SEQ_EXHAUSTED and its place
is free; a system record is dropped whole, the system-lost counter grows up to 65,535 and LOST is latched (R62); a capture
record waits, refused, for the CP to take the notice (R61). A system record that cannot have the next segment is dropped and
counted in the same way, and a capture record waits in the same way (R54). A system record request that finds four in the
lane is dropped and counted, the four staying; otherwise it joins the back; once the hold-up sequence has asked the AU to
stop it is discarded uncounted (R46, R64). After number 4,294,967,295 numbering is exhausted (R14, R56). -/
def Obligations.RefusedRecordsAreAccounted : Prop :=
  (∀ s : State, s.au.paused = false → s.au.record = none → s.au.nextSeq = .exhausted → s.au.holdup = .idle →
    s.au.formatAsked = false →
    (∀ q qs, s.au.systemLane = q :: qs → (q.kind = .timeSet ∨ q.kind = .silent) → exec .arbiterChoice s = .next
      { s with
        au := { s.au with systemLane := qs, systemLost := min (s.au.systemLost + 1) 65535 }
        hp := { s.hp with events := s.hp.events ||| 0x20 } }) ∧
    (∀ e rest, s.au.systemLane = [] → s.au.hostLane = { entry := e, state := .waiting } :: rest →
      (∀ p ∈ rest, p.state = .waiting) → (captureOffer s.cp = none ∨ s.au.lastServed = .capture) →
      exec .arbiterChoice s = .next
        { s with
          au := { s.au with hostLane := rest, lastServed := .host }
          hp := s.hp.post (Response.plain e.tag .seqExhausted []) }) ∧
    (∀ i k b, s.au.systemLane = [] → s.au.hostLane = [] → captureOffer s.cp = some (i, k) → s.cp.slots[i] = some b →
      ∃ q, q.phase = .refused .seqExhausted ∧ q.origin = .capture i k ∧ exec .arbiterChoice s = .next
        { s with
          au := { s.au with lastServed := .capture, record := some q }
          cp := { s.cp with
            refusal := some { slot := i, place := k, code := .seqExhausted }
            slots := s.cp.slots.set i (some { b with
              records := b.records.modify k (fun y => { y with res := .inAppend }) }) } })) ∧
  (∀ (s : State) (r : InProgress) (code : Result), s.au.record = some r → r.phase = .requesting → s.au.holdup = .idle →
    s.au.formatAsked = false → (s.js.index[s.js.filling + 1]).state = .sealed →
    ((s.js.policy = .stop ∧ code = .journalFull) ∨ (s.js.policy = .wrap ∧ nextHeld s = true ∧ code = .held)) →
    ((r.origin = .system .timeSet ∨ r.origin = .system .silent) → exec .nextSegmentRequest s = .next
      { s with
        au := { s.au with record := none, systemLost := min (s.au.systemLost + 1) 65535 }
        hp := { s.hp with events := s.hp.events ||| 0x20 } }) ∧
    ∀ i k, r.origin = .capture i k → exec .nextSegmentRequest s = .next
      { s with
        au := { s.au with record := some { r with phase := .refused code } }
        cp := { s.cp with refusal := some { slot := i, place := k, code := code } } }) ∧
  (∀ (s : State) (q : SysRequest),
    (s.au.holdup = .idle → s.au.systemLane.length < 4 →
      requestSystem q s = { s with au := { s.au with systemLane := s.au.systemLane ++ [q] } }) ∧
    (s.au.holdup = .idle → 4 ≤ s.au.systemLane.length → requestSystem q s =
      { s with
        au := { s.au with systemLost := min (s.au.systemLost + 1) 65535 }
        hp := { s.hp with events := s.hp.events ||| 0x20 } }) ∧
    (s.au.holdup ≠ .idle → requestSystem q s = s)) ∧
  ∀ n, NextSeq.after n = .exhausted ↔ n = 4294967295

/-! ## The Cursor Unit -/

/-- The hold floor (R118) is the lowest position among the cursors that hold: FORWARD with hold on and not CLOSED. A change
that lowers it is taken by the JS in the same happening; any other change is on its way to the JS; no change is no
report. That a lowering overtakes and drops the reports still on their way is the model's inference (log 29). -/
def Obligations.HoldFloorFollowsCursors : Prop :=
  (∀ u : Cu,
    let holding (c : Fin 4) : Prop :=
      (u.cursors[c]).backward = false ∧ (u.cursors[c]).hold = true ∧ (u.cursors[c]).state ≠ .closed
    (u.floor = none ↔ ∀ c, ¬ holding c) ∧
    ∀ m, u.floor = some m ↔
      (∃ c, holding c ∧ (u.cursors[c]).position = m) ∧ ∀ c, holding c → m ≤ (u.cursors[c]).position) ∧
  ∀ (old : Option Nat) (s : State),
    (s.cu.floor = old → reportFloor old s = s) ∧
    (∀ m, s.cu.floor = some m → (old = none ∨ ∃ k, old = some k ∧ m < k) →
      let t := { s with js := { s.js with holdFloor := some m, floorReports := [] } }
      reportFloor old s = if s.js.journal = .ready then prepare t else t) ∧
    (∀ k, old = some k → (s.cu.floor = none ∨ ∃ m, s.cu.floor = some m ∧ k < m) →
      reportFloor old s = { s with js := { s.js with floorReports := s.js.floorReports ++ [s.cu.floor] } })

/-- OPEN (R106, R107) of a CLOSED cursor: the cursor is READY at its start, clamped to the head sequence with the numbers
skipped reported, also on an empty journal and for a BACKWARD cursor at TAIL (the model's reading of R107, log 22); its
counters are 0, its window reads 00h (held while a WIN transaction has it open), a changed hold floor
is reported, and DONE carries position and numbers skipped, sent as at most 4,294,967,295 of them (the model's choice, log
44). A CLOSED number is refused as R106 gives: NOT_READY during
FORMAT, CURSOR_BUSY when it is open, BAD_PARAM for a cursor number above 3. -/
def Obligations.OpenSetsUpCursor : Prop :=
  ∀ (s : State) (e : Entry), s.cu.slot = some { entry := e, scan := none } → e.opcode = 0x30 →
    let refused (r : Result) : Host.Outcome State Fault Refusal := .next
      { s with cu := { s.cu with slot := none }, hp := s.hp.post (Response.plain e.tag r []) }
    (3 < e.param 0 → exec .openCursor s = refused .badParam) ∧
    ∀ c : Fin 4, e.param 0 = c.val →
      let x := s.cu.cursors[c]
      (s.cu.noOpen = true → exec .openCursor s = refused .notReady) ∧
      (s.cu.noOpen = false → x.state ≠ .closed → exec .openCursor s = refused .cursorBusy) ∧
      ∀ d : Descriptor, s.cu.noOpen = false → x.state = .closed →
        (e.param 1 = 0 ∨ e.param 1 = 1 ∨ e.param 1 = 2 ∨ e.param 1 = 4 ∨ e.param 1 = 6) → e.payload.length = 27 →
        e.param16 2 ≠ 0 → rd8 e.payload 22 ≤ 2 → (rd8 e.payload 22 = 2 → rd32 e.payload 23 ≠ 0) →
        parseDescriptor e.payload = some d →
        let backward : Bool := e.param 1 == 1
        let limit := if backward then tailSeq s - 1 else tailSeq s
        let start := match rd8 e.payload 22 with
          | 0 => headSeq s
          | 1 => limit
          | _ => min (rd32 e.payload 23) limit
        let pos := max start (headSeq s)
        let skipped := headSeq s - start
        let shown : Bool := !(winOpen c s)
        let opened : Cursor :=
          { state := .ready, backward := backward, follow := (e.param 1).testBit 1, hold := (e.param 1).testBit 2,
            desc := d, position := pos, timeout := e.param16 4, budget := e.param16 2, delivered := 0
            lost := min skipped 4294967295, pendingLoss := 0, window := if shown then [] else x.window
            heldWindow := if shown then x.heldWindow else some [], fetchTag := none, fetchLost := false
            beatsLeft := none }
        let t := reportFloor s.cu.floor { s with cu := { s.cu with cursors := s.cu.cursors.set c opened } }
        exec .openCursor s = .next
          { t with
            cu := { t.cu with slot := none }
            hp := Hp.post
              { tag := e.tag, result := .done, lost := skipped != 0, limited := false
                fields := positionBytes pos ++ be32 (min skipped 4294967295) }
              (if skipped = 0 then s.hp else { s.hp with events := s.hp.events ||| 0x20 }) }

/-- SEEK (R108, R120, R121) on a READY cursor: the loss check brings an overtaken forward position to the head, or takes the
pending loss of a backward cursor, and the position becomes the start; both losses are reported together in DONE and join
numbers lost; a changed hold floor is reported. The start is clamped also on an empty journal and for a BACKWARD cursor (the
model's reading of R107, log 22), and a sum of the losses beyond four bytes is sent as 4,294,967,295 (its choice, log 44). A
cursor that holds has not been overtaken. -/
def Obligations.SeekSetsPosition : Prop :=
  ∀ (s : State) (e : Entry) (c : Fin 4), s.cu.slot = some { entry := e, scan := none } → e.opcode = 0x31 →
    e.param 0 = c.val → (s.cu.cursors[c]).state = .ready → e.param 1 ≤ 2 →
    e.payload.length = (if e.param 1 = 2 then 4 else 0) → (e.param 1 = 2 → rd32 e.payload 0 ≠ 0) →
    let x := s.cu.cursors[c]
    (x.backward = false → x.hold = true → headSeq s ≤ x.position) →
    let limit := if x.backward then tailSeq s - 1 else tailSeq s
    let start := match e.param 1 with
      | 0 => headSeq s
      | 1 => limit
      | _ => min (rd32 e.payload 0) limit
    let pos := max start (headSeq s)
    let overtaken := if x.backward then x.pendingLoss else headSeq s - x.position
    let clamped := headSeq s - start
    let skipped := overtaken + clamped
    let sought : Cursor :=
      { x with
        position := pos
        pendingLoss := if x.backward then 0 else x.pendingLoss
        lost := if skipped = 0 then x.lost else min (min (x.lost + overtaken) 4294967295 + clamped) 4294967295 }
    let t := reportFloor s.cu.floor { s with cu := { s.cu with cursors := s.cu.cursors.set c sought } }
    exec .seek s = .next
      { t with
        cu := { t.cu with slot := none }
        hp := Hp.post
          { tag := e.tag, result := .done, lost := skipped != 0, limited := false
            fields := positionBytes pos ++ be32 (min skipped 4294967295) }
          (if skipped = 0 then s.hp else { s.hp with events := s.hp.events ||| 0x20 }) }

/-- FETCH, COUNT and SEEK to a TIME (R99, R109, R110, R112, R120, R121) on a READY cursor: the loss check is made and
reported, and the cursor is SCANNING from its position with the scan in the slot; a forward FETCH or COUNT already at the
tail, and a backward one already before the head, is at that end at once. The scan carries at most 4,294,967,295 numbers skipped to
its response (the model's choice, log 44). -/
def Obligations.SearchesBeginScanning : Prop :=
  ∀ (s : State) (e : Entry) (c : Fin 4), s.cu.slot = some { entry := e, scan := none } → e.param 0 = c.val →
    (s.cu.cursors[c]).state = .ready →
    let x := s.cu.cursors[c]
    let n := if x.backward then x.pendingLoss else headSeq s - x.position
    let p := if x.backward then x.position else max x.position (headSeq s)
    let scan (kind : ScanKind) (pos : Nat) (g : Seg) : Scan := Scan.mk c kind pos g none 0 0 (min n 4294967295) 0 false
    let t (sc : Scan) : State :=
      { s with
        cu := { s.cu with
          cursors := s.cu.cursors.set c { x with
            state := .scanning, position := p, pendingLoss := if x.backward then 0 else x.pendingLoss
            lost := if n = 0 then x.lost else min (x.lost + n) 4294967295 }
          slot := some { entry := e, scan := some sc } }
        hp := if n = 0 then s.hp else { s.hp with events := s.hp.events ||| 0x20 } }
    let begins (kind : ScanKind) : State :=
      let sc := scan kind p (scanStart p s)
      if x.backward then (if p < headSeq s then atHead e sc (headSeq s - 1) (t sc) else t sc)
      else if tailSeq s ≤ p then atTail e sc (t sc) else t sc
    (e.opcode = 0x32 → e.payload = [] → exec .fetch s = .next (begins .fetch)) ∧
    (e.opcode = 0x33 → e.payload = [] → exec .count s = .next (begins .count)) ∧
    (e.opcode = 0x31 → e.param 1 = 3 → e.payload.length = 6 → rd16 e.payload 4 ≤ 32767 → exec .seekTime s = .next
      (t (scan (.seekTime (rdStamp e.payload 0)) 0 (if x.backward then s.js.filling else s.js.head))))

/-- The tests of the cursor commands in their order (R101): a cursor number above 3 is answered BAD_PARAM; a CLOSED cursor
CURSOR_CLOSED, but for OPEN; a PARKED one CURSOR_BUSY, for FETCH, COUNT and SEEK; then BAD_PARAM for a payload of FETCH,
COUNT, CANCEL, CLOSE or CURSOR_STATUS (R199), and for what R108 names of a SEEK. OPEN's own tests 3 to 7 (R106) answer
BAD_PARAM. A command so answered changes nothing and frees the slot. -/
def Obligations.CursorTestsComeFirst : Prop :=
  ∀ (s : State) (e : Entry), s.cu.slot = some { entry := e, scan := none } →
    let refused (r : Result) : Host.Outcome State Fault Refusal := .next
      { s with cu := { s.cu with slot := none }, hp := s.hp.post (Response.plain e.tag r []) }
    let badSeek : Prop := 3 < e.param 1 ∨
      e.payload.length ≠ (if e.param 1 = 2 then 4 else if e.param 1 = 3 then 6 else 0) ∨
      (e.param 1 = 2 ∧ rd32 e.payload 0 = 0) ∨ (e.param 1 = 3 ∧ 32767 < rd16 e.payload 4)
    let rows : List (Byte × Instr × Bool × Prop) :=
      [(0x31, (if e.param 1 = 3 then .seekTime else .seek), true, badSeek), (0x32, .fetch, true, e.payload ≠ []),
        (0x33, .count, true, e.payload ≠ []), (0x34, .cancel, false, e.payload ≠ []), (0x35, .close, false, e.payload ≠ []),
        (0x36, .cursorStatus, false, e.payload ≠ [])]
    (∀ row ∈ rows, e.opcode = row.1 →
      (3 < e.param 0 → exec row.2.1 s = refused .badParam) ∧
      ∀ c : Fin 4, e.param 0 = c.val →
        let st := (s.cu.cursors[c]).state
        (st = .closed → exec row.2.1 s = refused .cursorClosed) ∧
        (st = .parked → row.2.2.1 = true → exec row.2.1 s = refused .cursorBusy) ∧
        (st ≠ .closed → ¬ (st = .parked ∧ row.2.2.1 = true) → row.2.2.2 → exec row.2.1 s = refused .badParam)) ∧
    ∀ c : Fin 4, e.opcode = 0x30 → e.param 0 = c.val → s.cu.noOpen = false → (s.cu.cursors[c]).state = .closed →
      (e.param 1 ∉ [0, 1, 2, 4, 6] ∨ e.payload.length ≠ 27 ∨ e.param16 2 = 0 ∨ 2 < rd8 e.payload 22 ∨
        (rd8 e.payload 22 = 2 ∧ rd32 e.payload 23 = 0) ∨ parseDescriptor e.payload = none) →
      exec .openCursor s = refused .badParam

/-- CANCEL (R116): a parked fetch answers CANCELLED and the cursor is READY at its position, then CANCEL answers DONE; a
READY cursor is left as it is; while a scan holds the slot CANCEL waits in the queue. CLOSE (R117): a parked fetch answers
CLOSED, the cursor is CLOSED with its hold off and its window kept, a changed hold floor is reported, and CLOSE answers
DONE. That CANCELLED and CLOSED carry the LOST of a loss met before the park is the model's inference (log 20).
CURSOR_STATUS (R126) answers and changes nothing. -/
def Obligations.CancelCloseAndStatusAnswer : Prop :=
  (∀ (s : State) (e : Entry) (c : Fin 4), s.cu.slot = some { entry := e, scan := none } → e.opcode = 0x34 →
    e.param 0 = c.val → e.payload = [] →
    let x := s.cu.cursors[c]
    (∀ tag, x.state = .parked → x.fetchTag = some tag → exec .cancel s = .next
      { s with
        cu := { s.cu with
          slot := none
          cursors := s.cu.cursors.set c { x with state := .ready, fetchTag := none, fetchLost := false, beatsLeft := none } }
        hp := Hp.post (Response.plain e.tag .done [])
          (Hp.post { tag := tag, result := .cancelled, lost := x.fetchLost, limited := false, fields := [] } s.hp) }) ∧
    (x.state = .ready → exec .cancel s = .next
      { s with cu := { s.cu with slot := none }, hp := s.hp.post (Response.plain e.tag .done []) })) ∧
  (∀ (s : State) (e : Entry) (rest : List Entry) (x : CuSlot), s.cu.slot = some x → e.opcode = 0x34 →
    s.hp.commands = e :: rest → exec .dispatch s = .next s) ∧
  ∀ (s : State) (e : Entry) (c : Fin 4), s.cu.slot = some { entry := e, scan := none } → e.param 0 = c.val →
    e.payload = [] →
    let x := s.cu.cursors[c]
    let closed (h : Hp) : Host.Outcome State Fault Refusal :=
      let t := reportFloor s.cu.floor
        { s with
          cu := { s.cu with cursors := s.cu.cursors.set c { x with
            state := .closed, hold := false, fetchTag := none, fetchLost := false, beatsLeft := none } } }
      .next { t with cu := { t.cu with slot := none }, hp := h.post (Response.plain e.tag .done []) }
    (e.opcode = 0x35 → x.state = .ready → exec .close s = closed s.hp) ∧
    (∀ tag, e.opcode = 0x35 → x.state = .parked → x.fetchTag = some tag → exec .close s = closed
      (s.hp.post { tag := tag, result := .closed, lost := x.fetchLost, limited := false, fields := [] })) ∧
    (e.opcode = 0x36 → x.state = .ready ∨ x.state = .parked → exec .cursorStatus s = .next
      { s with
        cu := { s.cu with slot := none }
        hp := s.hp.post (Response.plain e.tag .done
          ([byte ((if x.state = .ready then 1 else 3) + 4 * x.backward.toNat + 8 * x.follow.toNat + 16 * x.hold.toNat
              + 128 * (x.position == 4294967296).toNat)]
            ++ be32 (if x.position = 4294967296 then 0 else x.position) ++ be32 x.delivered ++ be32 x.lost)) })

/-- SCAN_STEP of a FETCH at a COMMITTED record in range that matches, at unit `v` (R105, R110, R124, R125): the record is
copied whole into the window with its state shown COMMITTED (held while a WIN transaction has it open), the cursor is READY
one past it, or one before it when backward, the match is counted, losses are in the response, a changed hold floor is
reported, and FOUND is posted. -/
def Obligations.ScanFindsMatch : Prop :=
  ∀ (s : State) (e : Entry) (sc : Scan) (v : Nat), s.cu.slot = some { entry := e, scan := some sc } → sc.kind = .fetch →
    sc.left = false → v ≤ 255 →
    let x := s.cu.cursors[sc.cursor]
    let r := stored s.mem sc.seg v
    (x.backward = false → sc.unit = some v ∧ sc.pos ≤ r.seq) →
    (x.backward = true → r.seq ≤ sc.pos ∧ ∃ w, sc.unit = some w ∧ lastBelow s.mem sc.seg w = some v) →
    r.state = .committed → x.desc.acceptsStored r = true →
    let image : List Byte := 0xC3 :: (s.mem.bytes (sc.seg.val * 2048 + v * 8) (r.size * 8)).drop 1
    let shown : Bool := !(winOpen sc.cursor s)
    let skipped := min (sc.skipped + sc.owed) 4294967295
    exec .scanStep s = .next (reportFloor s.cu.floor
      { s with
        cu := { s.cu with
          slot := none
          cursors := s.cu.cursors.set sc.cursor { x with
            state := .ready, position := if x.backward then r.seq - 1 else r.seq + 1
            delivered := min (x.delivered + 1) 4294967295
            lost := if sc.owed = 0 then x.lost else min (x.lost + sc.owed) 4294967295
            window := if shown then image else x.window, heldWindow := if shown then x.heldWindow else some image } }
        hp := Hp.post
          { tag := e.tag, result := .found, lost := skipped != 0, limited := false
            fields := be32 r.seq ++ [byte r.cls, byte r.len] ++ be32 r.stamp.seconds ++ be16 r.stamp.ticks }
          (if sc.owed = 0 then s.hp else { s.hp with events := s.hp.events ||| 0x20 }) })

/-- The other steps of a FETCH or COUNT in flight. A segment that cannot hold a match is passed over whole (R85, R102,
R104); a VOID place and a record outside the range are passed over; a COMMITTED record that does not match uses up one of
the budget, a COUNT counts the one that does. With the budget used up a FETCH answers LIMIT and a COUNT DONE with LIMITED
(R105, R110, R112). A forward scan leaves a segment at its first FREE place (R102). A backward scan leaves a segment with no
record left below, and in the head segment is at the head: a FETCH answers END before the head, a COUNT DONE (R104). Each
end reports a loss still owed (R123, R124) and a changed hold floor; a COUNT leaves the position as it was. A count of
numbers skipped beyond four bytes is sent as 4,294,967,295 (the model's choice, log 44). -/
def Obligations.ScanStepsPassOver : Prop :=
  ∀ (s : State) (e : Entry) (sc : Scan), s.cu.slot = some { entry := e, scan := some sc } → sc.left = false →
    (sc.kind = .fetch ∨ sc.kind = .count) →
    let x := s.cu.cursors[sc.cursor]
    let skipped := min (sc.skipped + sc.owed) 4294967295
    let goes (next : Scan) : Host.Outcome State Fault Refusal := .next
      { s with cu := { s.cu with slot := some { entry := e, scan := some next } } }
    let ends (pos : Nat) (r : Result) (limited : Bool) (fields : List Byte) : Host.Outcome State Fault Refusal := .next
      (reportFloor s.cu.floor
        { s with
          cu := { s.cu with
            slot := none
            cursors := s.cu.cursors.set sc.cursor { x with
              state := .ready, position := pos
              lost := if sc.owed = 0 then x.lost else min (x.lost + sc.owed) 4294967295 } }
          hp := Hp.post { tag := e.tag, result := r, lost := skipped != 0, limited := limited, fields := fields }
            (if sc.owed = 0 then s.hp else { s.hp with events := s.hp.events ||| 0x20 }) })
    let counted (n : Nat) (limited : Bool) := ends x.position .done limited (be32 n ++ be32 skipped)
    let leaves : Host.Outcome State Fault Refusal :=
      if sc.seg ≠ s.js.head then goes { sc with seg := sc.seg - 1, unit := none }
      else if sc.kind = .fetch then ends (headSeq s - 1) .endReached false (positionBytes (headSeq s - 1) ++ be32 skipped)
      else counted sc.found false
    let examined (v pos unit : Nat) : Host.Outcome State Fault Refusal :=
      let hit : Bool := x.desc.acceptsStored (stored s.mem sc.seg v)
      let found := if hit then sc.found + 1 else sc.found
      if sc.kind = .count then
        if sc.examined + 1 = x.budget then counted found true
        else goes { sc with pos := pos, unit := some unit, examined := sc.examined + 1, found := found }
      else if sc.examined + 1 = x.budget then ends pos .limit false (positionBytes pos ++ be32 skipped)
      else goes { sc with pos := pos, unit := some unit, examined := sc.examined + 1 }
    (sc.unit = none → x.desc.canHold s.js.index[sc.seg] = false →
      (x.backward = false → sc.seg ≠ s.js.filling → exec .scanStep s = goes { sc with seg := sc.seg + 1 }) ∧
      (x.backward = true → exec .scanStep s = leaves)) ∧
    (sc.unit = none → x.desc.canHold s.js.index[sc.seg] = true →
      (x.backward = false → sc.seg ≠ s.js.filling → exec .scanStep s = goes { sc with unit := some 1 }) ∧
      (x.backward = true → exec .scanStep s = goes { sc with unit := some 256 })) ∧
    (∀ u, sc.unit = some u → x.backward = false →
      let r := stored s.mem sc.seg u
      let st := placeState s.mem sc.seg u
      (st = .void ∨ (st = .committed ∧ r.seq < sc.pos) →
        exec .scanStep s = goes { sc with unit := some (u + r.size) }) ∧
      (st = .free → sc.seg ≠ s.js.filling → exec .scanStep s = goes { sc with seg := sc.seg + 1, unit := none }) ∧
      (st = .committed → sc.pos ≤ r.seq → (sc.kind = .fetch → x.desc.acceptsStored r = false) →
        exec .scanStep s = examined u (r.seq + 1) (u + r.size))) ∧
    ∀ u, sc.unit = some u → x.backward = true →
      (lastBelow s.mem sc.seg u = none → exec .scanStep s = leaves) ∧
      ∀ v, lastBelow s.mem sc.seg u = some v →
        let r := stored s.mem sc.seg v
        (r.state ≠ .committed ∨ sc.pos < r.seq → exec .scanStep s = goes { sc with unit := some v }) ∧
        (r.state = .committed → r.seq ≤ sc.pos → (sc.kind = .fetch → x.desc.acceptsStored r = false) →
          exec .scanStep s = examined v (r.seq - 1) v)

/-- TAIL_TEST at a FREE or OPEN place of the filling segment, or at its index entry when that cannot hold a match (R85,
R103, R110, R112, R113): a FETCH with follow off answers END at the tail sequence; with follow on it parks there, the slot
is free and the timeout wait begins, the fetch keeping the loss it has met (the model's inference, log 20); a COUNT answers
DONE with the matches found, its position as it was. A filling segment just reached that can hold a match is read from its
unit 1. A COMMITTED or VOID place, and a place of a segment that is no longer the filling one, is taken as a scan step takes
it; a scan that has reached no place of such a segment yet goes on reading it (both the model's readings, log 14). -/
def Obligations.TailTestEndsOrParks : Prop :=
  (∀ (s : State) (e : Entry) (sc : Scan), s.cu.slot = some { entry := e, scan := some sc } → sc.left = false →
    (s.cu.cursors[sc.cursor]).backward = false →
    (∀ u, sc.unit = some u →
      (placeState s.mem sc.seg u = .committed ∨ placeState s.mem sc.seg u = .void ∨ sc.seg ≠ s.js.filling) →
      exec .tailTest s = exec .scanStep s) ∧
    (sc.unit = none → sc.seg ≠ s.js.filling → exec .tailTest s = .next s) ∧
    ((sc.kind = .fetch ∨ sc.kind = .count) → sc.unit = none → sc.seg = s.js.filling →
      (s.cu.cursors[sc.cursor]).desc.canHold s.js.index[sc.seg] = true → exec .tailTest s = .next
        { s with cu := { s.cu with slot := some { entry := e, scan := some { sc with unit := some 1 } } } })) ∧
  ∀ (s : State) (e : Entry) (sc : Scan), s.cu.slot = some { entry := e, scan := some sc } →
    sc.seg = s.js.filling → sc.left = false → sc.owed = 0 → sc.skipped ≤ 4294967295 →
    let x := s.cu.cursors[sc.cursor]
    ((sc.unit = none ∧ x.desc.canHold s.js.index[sc.seg] = false) ∨
      ∃ u, sc.unit = some u ∧ (placeState s.mem sc.seg u = .free ∨ placeState s.mem sc.seg u = .opened)) →
    x.backward = false →
    let tail := tailSeq s
    let ends (pos : Nat) (result : Result) (fields : List Byte) : State :=
      { s with
        cu := { s.cu with slot := none, cursors := s.cu.cursors.set sc.cursor { x with state := .ready, position := pos } }
        hp := s.hp.post { tag := e.tag, result := result, lost := sc.skipped != 0, limited := false, fields := fields } }
    (sc.kind = .fetch → x.follow = false → exec .tailTest s = .next
      (reportFloor s.cu.floor (ends tail .endReached (positionBytes tail ++ be32 sc.skipped)))) ∧
    (sc.kind = .fetch → x.follow = true → exec .tailTest s = .next (reportFloor s.cu.floor
      { s with
        cu := { s.cu with
          slot := none
          cursors := s.cu.cursors.set sc.cursor { x with
            state := .parked, position := tail, fetchTag := some e.tag, fetchLost := sc.skipped != 0
            beatsLeft := if x.timeout = 0 then none else some x.timeout } } })) ∧
    (sc.kind = .count → exec .tailTest s = .next
      (reportFloor s.cu.floor (ends x.position .done (be32 sc.found ++ be32 sc.skipped))))

/-- A parked fetch: at CU_COMMIT_NOTICE with no other cursor parked a matching record at or above the position answers FOUND
and shows the record, another moves the position past it, one below is passed over (R114), and a changed hold floor is
reported; at FOLLOW_TIMEOUT with its beats over the fetch answers TIMEOUT with its position (R115). That FOUND carries the
LOST of a loss met before the park, and TIMEOUT does not, is the model's inference (log 20); so is the order in which
several parked cursors take one notice, which is not stated here (log 16). -/
def Obligations.ParkedFetchAnswers : Prop :=
  ∀ (s : State) (c : Fin 4) (tag : Byte),
    let x := s.cu.cursors[c]
    x.state = .parked → x.fetchTag = some tag →
    (∀ (n : Notice) (rest : List Notice), s.cu.notices = n :: rest → s.cu.stopped = false →
      (∀ b : Fin 4, b ≠ c → (s.cu.cursors[b]).state ≠ .parked) →
      let taken (y : Cursor) : Cu := { s.cu with notices := rest, cursors := s.cu.cursors.set c y }
      let shown : Bool := !(winOpen c s)
      (n.seq < x.position → exec .cuCommitNotice s = .next { s with cu := { s.cu with notices := rest } }) ∧
      (x.position ≤ n.seq → x.desc.acceptsNotice n = false → exec .cuCommitNotice s = .next
        (reportFloor s.cu.floor { s with cu := taken { x with position := n.seq + 1 } })) ∧
      (x.position ≤ n.seq → x.desc.acceptsNotice n = true → exec .cuCommitNotice s = .next (reportFloor s.cu.floor
        { s with
          cu := taken { x with
            state := .ready, position := n.seq + 1, delivered := min (x.delivered + 1) 4294967295, fetchTag := none
            fetchLost := false, beatsLeft := none
            window := if shown then windowImage s.mem n.seg n.unit else x.window
            heldWindow := if shown then x.heldWindow else some (windowImage s.mem n.seg n.unit) }
          hp := s.hp.post
            { tag := tag, result := .found, lost := x.fetchLost, limited := false
              fields := be32 n.seq ++ [byte n.cls, byte n.len] ++ n.stamp.bytes } }))) ∧
    (x.beatsLeft = some 0 → exec (.followTimeout c) s = .next
      { s with
        cu := { s.cu with cursors := s.cu.cursors.set c { x with
          state := .ready, fetchTag := none, fetchLost := false, beatsLeft := none } }
        hp := s.hp.post (Response.plain tag .timeout (positionBytes x.position)) })

/-- RECLAIM_NOTICE (R121, R122). A READY backward cursor that has not learned of the reclamation by reading is untouched
below the old head; inside the reclaimed segment it loses the numbers up to its position and goes before the new head; above
it it loses the whole segment's numbers; every other cursor stays. That a cursor opened since the reclamation is taken like
any other, but not one whose number has learned of it by reading before it was closed and opened again, is the model's
inference (log 34). A command not yet taken, and a scan that has learned of it already, stay. A
forward FETCH or COUNT scanning the reclaimed segment goes on from the new head, and the numbers skipped are reported; a
SEEK to a TIME does the same without a report (R109); scanning another segment, none is overtaken. The scan carries at most
4,294,967,295 numbers skipped to its response (the model's choice, log 44). That a segment stays out
of a scan's journal order once it has been reclaimed, were it opened again since, is the model's choice (log 41). -/
def Obligations.ReclaimNoticeAccountsLosses : Prop :=
  ∀ (s : State) (n : ReclaimNotice) (rest : List ReclaimNotice), s.cu.reclaims = n :: rest → s.cu.stopped = false →
    let rested (c : Fin 4) : Cursor :=
      let x := s.cu.cursors[c]
      if c ∈ n.seenBy ∨ x.state ≠ .ready ∨ x.backward = false ∨ x.position < n.oldHead then x
      else if x.position < n.newHead then
        { x with
          position := n.newHead - 1, pendingLoss := min (x.pendingLoss + (x.position - n.oldHead + 1)) 4294967295 }
      else { x with pendingLoss := min (x.pendingLoss + (n.newHead - n.oldHead)) 4294967295 }
    let noted : State := { s with cu := { s.cu with reclaims := rest, cursors := Vector.ofFn rested } }
    ((∀ x, s.cu.slot = some x → x.scan = none) → exec .reclaimNotice s = .next noted) ∧
    ∀ (e : Entry) (sc : Scan), s.cu.slot = some { entry := e, scan := some sc } →
      (sc.cursor ∈ n.seenBy → exec .reclaimNotice s = .next noted) ∧
      (sc.cursor ∉ n.seenBy → (s.cu.cursors[sc.cursor]).backward = false →
        let x := s.cu.cursors[sc.cursor]
        let skipped := if sc.kind = .fetch ∨ sc.kind = .count then n.newHead - sc.pos else 0
        (sc.left = false ∨ sc.seg ≠ n.seg → exec .reclaimNotice s = .next noted) ∧
        (sc.left = true → sc.seg = n.seg → exec .reclaimNotice s = .next
          { noted with
            cu := { noted.cu with
              cursors := noted.cu.cursors.set sc.cursor
                { x with lost := if skipped = 0 then x.lost else min (x.lost + skipped) 4294967295 }
              slot := some { entry := e
                             scan := some { sc with
                               seg := n.seg + 1, unit := none, pos := max sc.pos n.newHead
                               skipped := min (sc.skipped + skipped) 4294967295
                               left := rest.any (fun m => !(m.seenBy.contains sc.cursor) && m.seg == n.seg + 1) } } }
            hp := if skipped = 0 then s.hp else { s.hp with events := s.hp.events ||| 0x20 } }))

/-- A scan and the segments that leave journal order under it. A forward scan that reads finds its segment gone and goes on
from the first record of the head segment, a FETCH or COUNT reporting the numbers skipped; the notices on their way change
nothing more for it (R122). A backward FETCH or COUNT takes each reclamation once, by its notice or by reading (R123): below
the new head it ends at once at the head with the numbers from the old head up to its own skipped; otherwise it owes the
whole segment's numbers and goes on, losses adding up. It ends before the new head of the reclamation that ends it; by
reading it has learned of the reclamations up to that one and of no later, whose notices its cursor takes at rest (R121), and
at the notice each READY backward cursor beside it takes its own loss. That what it owes counts when it ends and not at the
notice is the model's inference (log 15), and that it goes on before the first record of the head segment its choice (log
41). SEEK to a TIME (R109): it passes over each segment without COMMITTED records or with stamps out of reach, and over each
record that is VOID or out of reach; the first COMMITTED record in its order stamped at or after the time, or for a backward
one at or before it, ends it there, and else the tail or the head; no lower than the head sequence when forward; overtaken,
it reports no loss. A count of numbers skipped beyond four bytes is sent as 4,294,967,295, the model's choice (log 44). -/
def Obligations.ScansLoseTheirSegment : Prop :=
  (∀ (q : Nat) (n : ReclaimNotice) (rest : List ReclaimNotice),
    lossesOf q [] = (false, 0) ∧
    (q < n.newHead → lossesOf q (n :: rest) = (true, q + 1 - n.oldHead)) ∧
    (n.newHead ≤ q → lossesOf q (n :: rest) = ((lossesOf q rest).1, (n.newHead - n.oldHead) + (lossesOf q rest).2))) ∧
  ∀ (s : State) (e : Entry) (sc : Scan), s.cu.slot = some { entry := e, scan := some sc } →
    let x := s.cu.cursors[sc.cursor]
    let h := headSeq s
    let mark (ns : List ReclaimNotice) : List ReclaimNotice := ns.map (fun n => { n with seenBy := sc.cursor :: n.seenBy })
    let new (n : ReclaimNotice) : Prop := sc.cursor ∉ n.seenBy
    let ending (n : ReclaimNotice) : Prop := if sc.kind = .fetch ∨ sc.kind = .count then sc.pos < n.newHead else n.seg = sc.seg
    let goes (t : State) (next : Scan) : Host.Outcome State Fault Refusal := .next
      { t with cu := { t.cu with slot := some { entry := e, scan := some next } } }
    let ends (t : State) (owed pos : Nat) (r : Result) (fields : Nat → List Byte) : Host.Outcome State Fault Refusal :=
      let y := t.cu.cursors[sc.cursor]
      let skipped := min (sc.skipped + owed) 4294967295
      .next (reportFloor t.cu.floor
        { t with
          cu := { t.cu with
            slot := none
            cursors := t.cu.cursors.set sc.cursor { y with
              state := .ready, position := pos
              lost := if owed = 0 then y.lost else min (y.lost + owed) 4294967295 } }
          hp := Hp.post { tag := e.tag, result := r, lost := skipped != 0, limited := false, fields := fields skipped }
            (if owed = 0 then t.hp else { t.hp with events := t.hp.events ||| 0x20 }) })
    let atTheHead (t : State) (owed before : Nat) : Host.Outcome State Fault Refusal :=
      if sc.kind = .count then
        ends t owed (t.cu.cursors[sc.cursor]).position .done (fun k => be32 sc.found ++ be32 k)
      else ends t owed before (if sc.kind = .fetch then .endReached else .done)
        (fun k => positionBytes before ++ be32 k)
    let known (ns : List ReclaimNotice) : State := { s with cu := { s.cu with reclaims := ns } }
    let headScan (owed : Nat) : Scan := { sc with seg := s.js.head, unit := some 1, left := false, owed := owed }
    (sc.left = true → x.backward = false →
      let skipped := if sc.kind = .fetch ∨ sc.kind = .count then h - sc.pos else 0
      let overtaken : Host.Outcome State Fault Refusal := .next
        { s with
          cu := { s.cu with
            reclaims := mark s.cu.reclaims
            cursors := s.cu.cursors.set sc.cursor
              { x with lost := if skipped = 0 then x.lost else min (x.lost + skipped) 4294967295 }
            slot := some { entry := e
                           scan := some { sc with
                             seg := s.js.head, unit := none, pos := max sc.pos h
                             skipped := min (sc.skipped + skipped) 4294967295, left := false } } }
          hp := if skipped = 0 then s.hp else { s.hp with events := s.hp.events ||| 0x20 } }
      exec .scanStep s = overtaken ∧ exec .tailTest s = overtaken) ∧
    (sc.left = true → x.backward = true →
      (∀ before n after, s.cu.reclaims = before ++ n :: after → new n → ending n →
        (∀ m ∈ before, new m → ¬ ending m) →
        let t := known (mark (before ++ [n]) ++ after)
        let l := lossesOf sc.pos ((before ++ n :: after).filter (fun m => !(m.seenBy.contains sc.cursor)))
        exec .scanStep s =
          atTheHead t (if sc.kind = .fetch ∨ sc.kind = .count then sc.owed + l.2 else sc.owed) (n.newHead - 1)) ∧
      ((∀ m ∈ s.cu.reclaims, new m → ¬ ending m) →
        let t := known (mark s.cu.reclaims)
        exec .scanStep s =
          if sc.kind = .fetch ∨ sc.kind = .count then
            goes t (headScan (sc.owed + (lossesOf sc.pos (s.cu.reclaims.filter (fun m => !(m.seenBy.contains sc.cursor)))).2))
          else atTheHead t sc.owed (h - 1))) ∧
    (∀ n rest, s.cu.reclaims = n :: rest → s.cu.stopped = false → new n → x.backward = true →
      let noted : State := { s with cu := { s.cu with
        reclaims := rest
        cursors := Vector.ofFn (fun c =>
          if c ∈ n.seenBy then s.cu.cursors[c] else (s.cu.cursors[c]).takeReclaim n) } }
      let inside : Prop := sc.left = true ∧ sc.seg = n.seg
      (sc.kind = .fetch ∨ sc.kind = .count →
        (sc.pos < n.newHead →
          exec .reclaimNotice s = atTheHead noted (sc.owed + (sc.pos + 1 - n.oldHead)) (n.newHead - 1)) ∧
        (n.newHead ≤ sc.pos →
          (inside → exec .reclaimNotice s = goes noted (headScan (sc.owed + (n.newHead - n.oldHead)))) ∧
          (¬ inside → exec .reclaimNotice s = goes noted { sc with owed := sc.owed + (n.newHead - n.oldHead) }))) ∧
      (sc.kind ≠ .fetch → sc.kind ≠ .count →
        exec .reclaimNotice s = if inside then atTheHead noted sc.owed (n.newHead - 1) else goes noted sc)) ∧
    (∀ t, sc.kind = .seekTime t → sc.left = false →
      let entry := s.js.index[sc.seg]
      let on (next : Scan) := goes s next
      let none0 (p : Nat) := ends s sc.owed p .done (fun k => positionBytes p ++ be32 k)
      (x.backward = false → sc.unit = none →
        ((∀ m, entry.maxStamp = some m → t.le m = false) →
          (sc.seg ≠ s.js.filling → exec .scanStep s = on { sc with seg := sc.seg + 1 }) ∧
          (sc.seg = s.js.filling → exec .tailTest s = none0 (max (tailSeq s) h))) ∧
        (∀ m, entry.maxStamp = some m → t.le m = true →
          (sc.seg ≠ s.js.filling → exec .scanStep s = on { sc with unit := some 1 }) ∧
          (sc.seg = s.js.filling → exec .tailTest s = on { sc with unit := some 1 }))) ∧
      (x.backward = true → sc.unit = none →
        ((∀ m, entry.minStamp = some m → m.le t = false) →
          (sc.seg ≠ s.js.head → exec .scanStep s = on { sc with seg := sc.seg - 1 }) ∧
          (sc.seg = s.js.head → exec .scanStep s = none0 (h - 1))) ∧
        (∀ m, entry.minStamp = some m → m.le t = true → exec .scanStep s = on { sc with unit := some 256 })) ∧
      (∀ u, x.backward = false → sc.unit = some u →
        let r := stored s.mem sc.seg u
        let st := placeState s.mem sc.seg u
        (st = .void → exec .scanStep s = on { sc with unit := some (u + r.size) }) ∧
        (st = .committed → t.le r.stamp = false →
          exec .scanStep s = on { sc with pos := r.seq + 1, unit := some (u + r.size), examined := sc.examined + 1 }) ∧
        (st = .free → sc.seg ≠ s.js.filling → exec .scanStep s = on { sc with seg := sc.seg + 1, unit := none })) ∧
      ∀ u, x.backward = true → sc.unit = some u →
        (lastBelow s.mem sc.seg u = none → sc.seg ≠ s.js.head →
          exec .scanStep s = on { sc with seg := sc.seg - 1, unit := none }) ∧
        ∀ v, lastBelow s.mem sc.seg u = some v →
          let r := stored s.mem sc.seg v
          (r.state ≠ .committed → exec .scanStep s = on { sc with unit := some v }) ∧
          (r.state = .committed → r.stamp.le t = false →
            exec .scanStep s = on { sc with pos := r.seq - 1, unit := some v, examined := sc.examined + 1 })) ∧
    ∀ t v, sc.kind = .seekTime t → sc.left = false →
      let r := stored s.mem sc.seg v
      let reached (p : Nat) := ends s sc.owed p .done (fun k => positionBytes p ++ be32 k)
      (x.backward = false → sc.unit = some v → placeState s.mem sc.seg v = .committed → t.le r.stamp = true →
        exec .scanStep s = reached (max r.seq h)) ∧
      (∀ u, x.backward = true → sc.unit = some u → lastBelow s.mem sc.seg u = some v → r.state = .committed →
        r.stamp.le t = true → exec .scanStep s = reached r.seq) ∧
      (x.backward = false → sc.unit = some v → sc.seg = s.js.filling → placeState s.mem sc.seg v = .free →
        exec .tailTest s = reached (max (tailSeq s) h)) ∧
      (x.backward = true → sc.unit = some v → sc.seg = s.js.head → lastBelow s.mem sc.seg v = none →
        exec .scanStep s = reached (h - 1))

/-! ## The Capture Port -/

/-- A node sequence `q` is ahead of last_seq `l` (R142) when `q` less `l` modulo 256 lies in 1-127: the 127 sequences after
last_seq are, last_seq and the 128 before it are not; with last_seq absent every one is. A good record of an enabled node in
a permitted class is TAKEN when it is ahead and DUPLICATE when it is not. -/
def Obligations.AheadByNodeSequence : Prop :=
  (∀ l q, l < 256 → q < 256 → (ahead (some l) q = true ↔ ∃ d, 1 ≤ d ∧ d ≤ 127 ∧ q = (l + d) % 256)) ∧
  (∀ l k, l < 256 → k < 129 → ahead (some l) ((l + 256 - k) % 256) = false) ∧
  (∀ q, ahead none q = true) ∧
  ∀ (arrival : Stamp) (unset : Bool) (n : Node) (r : BurstRecord), r.checkOk = true → n.enabled = true → r.cls < 12 →
    n.classes.getLsbD r.cls = true →
    ((verifyRecord arrival unset n r).2.res = .queued ↔ ahead n.lastSeq r.nodeSeq = true) ∧
    ((verifyRecord arrival unset n r).2.res = .duplicate ↔ ahead n.lastSeq r.nodeSeq = false)

/-- CHARACTER_RECEIVED up to the end of the header (R130, R135, R136). DISABLED and ACKING take no character; in WAIT_IDLE a
character restarts the idle measurement, which the model does not hold as state (its inference, log 11), and nothing else.
In IDLE a good C9h begins a burst and any other character goes to WAIT_IDLE. The fourth header byte is tested: a bad header
is counted and the receiver waits for idle, or sends what is due; a good one is a probe, claims the lower free slot, or is
received in DISCARD. A good character of a record (R137, R139) is taken until the 7 + L bytes of the record are complete;
the record then lies in the claimed slot as sent, and the kth is followed by TRAILER. In DISCARD nothing is kept. A framing
failure (R138): at GAP_TIMEOUT inside a burst, a bad character, a payload length above 232 or a wrong end marker the slot
claimed is released, the framing counter grows, CAPTURE is latched, and the receiver waits for idle or sends what is due.
GAP_TIMEOUT outside a burst changes nothing. IDLE_TIME_ELAPSED ends the wait (R135). -/
def Obligations.BurstBytesAreTaken : Prop :=
  ((∀ (s : State) (c : Byte),
    (∀ good, (s.cp.receiver = .disabled ∨ s.cp.receiver = .acking ∨ s.cp.receiver = .waitIdle) →
      exec (.characterReceived c good) s = .next s) ∧
    (∀ good, s.cp.receiver = .idle → s.cp.queue = [] → exec (.characterReceived c good) s = .next
      { s with cp := if good = true ∧ c = 0xC9 then
            { s.cp with
              receiver := .header
              reception := some { header := [], node := 0, num := 0, count := 0, slot := none, complete := 0, current := [] } }
          else { s.cp with receiver := .waitIdle, reception := none } }) ∧
    ∀ r : Reception, s.cp.receiver = .header → s.cp.reception = some r →
      (r.header.length < 3 → exec (.characterReceived c true) s = .next
        { s with cp := { s.cp with reception := some { r with header := r.header ++ [c] } } }) ∧
      ∀ a b k : Byte, r.header = [a, b, k] →
        let good : Prop := crc8 [a, b, k] = c ∧ a.toNat ≤ 7 ∧ k.toNat ≤ 6
        let begun (slot : Option (Fin 2)) : Reception :=
          { header := [a, b, k, c], node := Fin.ofNat 8 a.toNat, num := b, count := k.toNat, slot := slot, complete := 0
            current := [] }
        let goesOn (state : Receiver) (slot : Option (Fin 2)) (slots : Vector (Option Burst) 2) :
            Host.Outcome State Fault Refusal :=
          .next { s with cp := { s.cp with receiver := state, reception := some (begun slot), slots := slots } }
        let claimed : Option Burst := some
          { node := Fin.ofNat 8 a.toNat, num := b, count := k.toNat, records := [], verified := false
            arrival := { seconds := 0, ticks := 0 }, windowLen := 0, beatsLeft := none, ack := .notDue }
        (¬ good → exec (.characterReceived c true) s = .next
          { s with cp := { s.cp with
            badHeaders := min (s.cp.badHeaders + 1) 65535, reception := none
            receiver := if s.cp.queue = [] then .waitIdle else .acking
            resume := if s.cp.queue = [] then s.cp.resume else .waitIdle } }) ∧
        (good → k = 0 → exec (.characterReceived c true) s = goesOn .trailer none s.cp.slots) ∧
        (good → k ≠ 0 → s.cp.slots[0] = none →
          exec (.characterReceived c true) s = goesOn .records (some 0) (s.cp.slots.set 0 claimed)) ∧
        (good → k ≠ 0 → s.cp.slots[0] ≠ none → s.cp.slots[1] = none →
          exec (.characterReceived c true) s = goesOn .records (some 1) (s.cp.slots.set 1 claimed)) ∧
        (good → k ≠ 0 → s.cp.slots[0] ≠ none → s.cp.slots[1] ≠ none →
          exec (.characterReceived c true) s = goesOn .discard none s.cp.slots)) ∧
  ∀ (s : State) (r : Reception) (c : Byte), s.cp.reception = some r →
    (s.cp.receiver = .records ∨ (s.cp.receiver = .discard ∧ r.complete < r.count)) →
    let l := r.current ++ [c]
    let len := (l.getD 0 0).toNat
    len ≤ 232 →
    (l.length < 7 + len → exec (.characterReceived c true) s = .next
      { s with cp := { s.cp with reception := some { r with current := l } } }) ∧
    (l.length = 7 + len → r.slot = none → exec (.characterReceived c true) s = .next
      { s with cp := { s.cp with reception := some { r with complete := r.complete + 1, current := [] } } }) ∧
    ∀ (i : Fin 2) (b : Burst), l.length = 7 + len → r.slot = some i → s.cp.slots[i] = some b →
      exec (.characterReceived c true) s = .next
        { s with cp := { s.cp with
          reception := some { r with complete := r.complete + 1, current := [] }
          receiver := if r.complete + 1 = r.count then .trailer else s.cp.receiver
          slots := s.cp.slots.set i (some { b with records := b.records ++
            [{ cls := rd8 l 1, nodeSeq := rd8 l 2, age := rd16 l 3, payload := (l.drop 5).take len, crc := rd16 l (5 + len)
               stamp := { seconds := 0, ticks := 0 }, unset := false, res := .received }] }) } }) ∧
  (∀ (s : State) (r : Reception), s.cp.reception = some r →
    (s.cp.receiver = .header ∨ s.cp.receiver = .records ∨ s.cp.receiver = .trailer ∨ s.cp.receiver = .discard) →
    let failed : State :=
      { s with
        cp := { s.cp with
          framing := min (s.cp.framing + 1) 65535, reception := none
          slots := match r.slot with
            | some i => s.cp.slots.set i none
            | none => s.cp.slots
          receiver := if s.cp.queue = [] then .waitIdle else .acking
          resume := if s.cp.queue = [] then s.cp.resume else .waitIdle }
        hp := { s.hp with events := s.hp.events ||| 0x08 } }
    let records : Prop := s.cp.receiver = .records ∨ (s.cp.receiver = .discard ∧ r.complete < r.count)
    let trailer : Prop := s.cp.receiver = .trailer ∨ (s.cp.receiver = .discard ∧ r.count ≤ r.complete)
    exec .gapTimeout s = .next failed ∧ (∀ c, exec (.characterReceived c false) s = .next failed) ∧
      (∀ c, trailer → c ≠ 0x9C → exec (.characterReceived c true) s = .next failed) ∧
      (∀ c, records → r.current = [] → 232 < c.toNat → exec (.characterReceived c true) s = .next failed)) ∧
  (∀ s : State, (s.cp.receiver = .disabled ∨ s.cp.receiver = .waitIdle ∨ s.cp.receiver = .idle ∨ s.cp.receiver = .acking) →
    exec .gapTimeout s = .next s) ∧
  ∀ s : State, s.cp.receiver = .waitIdle → s.cp.queue = [] →
    exec .idleTimeElapsed s = .next { s with cp := { s.cp with receiver := .idle } }

/-- The end marker of a burst in a slot (R137, R141, R143, R146): each record is resolved in order by the four tests against
the node's entry as it then stands; the window begins, or with no record TAKEN the acknowledge is due and ACKING begins. A
probe (R140) and a DISCARD burst (R139) are answered at once. -/
def Obligations.EndMarkerResolvesBurst : Prop :=
  (∀ (arrival : Stamp) (unset : Bool) (n : Node) (x : BurstRecord),
    let ofNode : Bool := n.enabled && (x.cls < 12 && n.classes.getLsbD x.cls)
    verifyRecord arrival unset n x =
      if x.checkOk = false then ({ n with badChecks := min (n.badChecks + 1) 65535 }, { x with res := .badCheck })
      else if ofNode = false then ({ n with refused := min (n.refused + 1) 65535 }, { x with res := .refused })
      else if ahead n.lastSeq x.nodeSeq = false then
        ({ n with duplicates := min (n.duplicates + 1) 65535 }, { x with res := .duplicate })
      else ({ n with lastSeq := some x.nodeSeq, pending := n.pending + 1 },
        { x with res := .queued, stamp := Stamp.ofTotal (arrival.total - x.age), unset := unset })) ∧
  (∀ (s : State) (r : Reception) (i : Fin 2) (b : Burst), s.cp.receiver = .trailer → s.cp.reception = some r →
    r.slot = some i → s.cp.slots[i] = some b → b.ack = .notDue → s.cp.queue = [] →
    let node := s.cp.nodes[b.node]
    let v := verifyRecords s.tb.now (!s.tb.isSet) { node with bursts := min (node.bursts + 1) 65535 } b.records
    let taken : Bool := v.2.any (fun x => x.res == .queued)
    exec (.characterReceived 0x9C true) s = .next
      { s with cp := { s.cp with
        nodes := s.cp.nodes.set b.node v.1
        slots := s.cp.slots.set i (some { b with
          records := v.2, verified := true, arrival := s.tb.now, windowLen := s.cp.window
          beatsLeft := if taken then some s.cp.window else none, ack := if taken then .notDue else .due })
        order := s.cp.order ++ [i], reception := none
        queue := if taken then [] else [.slot i], receiver := if taken then .idle else .acking
        resume := if taken then s.cp.resume else .idle } }) ∧
  ∀ (s : State) (r : Reception), s.cp.reception = some r → r.slot = none →
    let node := s.cp.nodes[r.node]
    (s.cp.receiver = .trailer → r.count = 0 → exec (.characterReceived 0x9C true) s = .next
      { s with cp := { s.cp with
        nodes := s.cp.nodes.set r.node { node with bursts := min (node.bursts + 1) 65535 }
        queue := s.cp.queue ++ [.direct r.node r.num []], reception := none, receiver := .acking, resume := .idle } }) ∧
    (s.cp.receiver = .discard → r.count ≠ 0 → r.complete = r.count → exec (.characterReceived 0x9C true) s = .next
      { s with
        cp := { s.cp with
          nodes := s.cp.nodes.set r.node
            { node with
              bursts := min (node.bursts + 1) 65535
              noRoom := if node.enabled then min (node.noRoom + r.count) 65535 else node.noRoom
              refused := if node.enabled then node.refused else min (node.refused + r.count) 65535 }
          queue := s.cp.queue ++ [.direct r.node r.num (List.replicate r.count (if node.enabled then 5 else 4))]
          noSlot := min (s.cp.noSlot + 1) 65535, reception := none, receiver := .acking, resume := .idle }
        hp := { s.hp with events := s.hp.events ||| 0x08 } })

/-- Acknowledges (R134, R146 to R148). ACKNOWLEDGE_WINDOW_END: the acknowledge falls due and joins the queue; with the
receiver DISABLED it is dropped and counted, and a slot with every record resolved becomes free. ACK_FRAME_START fixes the
frame's results and watermark. ACK_FRAME_END counts it and frees a slot with every record resolved; ACKING ends with the
queue. That an acknowledge stays at the front of the queue until the end of its frame is the model's inference (log 28). A
CAPTURE_SET that has waited for the frame's end is applied there (R152): the settings are taken, the rest of the queue is
dropped and counted when capture goes off, and a control block write is requested. -/
def Obligations.AcknowledgesAreSent : Prop :=
  ∀ s : State,
    let freed (i : Fin 2) : Cp := { s.cp with slots := s.cp.slots.set i none, order := s.cp.order.filter (fun j => j != i) }
    (∀ (i : Fin 2) (b : Burst), s.cp.slots[i] = some b → b.verified = true → b.beatsLeft = some 0 → b.ack = .notDue →
      let due : Cp := { s.cp with
        slots := s.cp.slots.set i (some { b with ack := .due, beatsLeft := none }), queue := s.cp.queue ++ [.slot i] }
      let dropped : Cp := if b.allResolved then freed i
        else { s.cp with slots := s.cp.slots.set i (some { b with ack := .dropped, beatsLeft := none }) }
      exec (.acknowledgeWindowEnd i) s = .next
        { s with cp :=
          if s.cp.receiver = .disabled then { dropped with acksDropped := min (s.cp.acksDropped + 1) 65535 }
          else if s.cp.receiver = .idle ∨ s.cp.receiver = .waitIdle then
            { due with receiver := .acking, resume := s.cp.receiver }
          else due }) ∧
    (s.cp.receiver = .acking → s.cp.frame = none →
      let frame (node num : Byte) (codes : List Byte) (watermark : Option Nat) : List Byte :=
        let l := [0x6A, node, num, byte codes.length] ++ codes ++ [byte watermark.isSome.toNat, byte (watermark.getD 0)]
        l ++ [crc8 l]
      let begins (f : Frame) : Host.Outcome State Fault Refusal := .next { s with cp := { s.cp with frame := some f } }
      (∀ i b rest, s.cp.queue = .slot i :: rest → s.cp.slots[i] = some b → exec .ackFrameStart s = begins
        { bytes := frame (byte b.node.val) b.num (b.records.map (fun x => x.res.sent)) (s.cp.nodes[b.node]).committedSeq
          slot := some i }) ∧
      (∀ node num codes rest, s.cp.queue = .direct node num codes :: rest → exec .ackFrameStart s = begins
        { bytes := frame (byte node.val) num codes (s.cp.nodes[node]).committedSeq, slot := none })) ∧
    (∀ (f : Frame) (q : Ack) (e : Entry), s.cp.receiver = .acking → s.cp.frame = some f → s.cp.queue = [q] → f.slot = none →
      s.cp.slot = some { entry := e, phase := .frameWait } → s.cp.reception = none →
      let set : Cp := { s.cp with
        frame := none, queue := [], acksSent := min (s.cp.acksSent + 1) 65535, enabled := e.param 0 == 1, rate := e.param 1
        gap := e.param 2, window := e.param 3, receiver := if e.param 0 = 1 then .waitIdle else .disabled
        slot := some { entry := e, phase := .writeWait (if s.js.copyWrite.isSome then .nextWrite else .thisWrite) } }
      exec .ackFrameEnd s = .next (requestCopy { s with cp := set })) ∧
    (∀ (f : Frame) (q a : Ack) (e : Entry), s.cp.receiver = .acking → s.cp.frame = some f → s.cp.queue = [q, a] →
      f.slot = none → s.cp.slot = some { entry := e, phase := .frameWait } → s.cp.reception = none → e.param 0 ≠ 1 →
      (∃ node num codes, a = .direct node num codes) →
      ∃ t, exec .ackFrameEnd s = .next t ∧ t.cp.queue = [] ∧ t.cp.receiver = .disabled ∧ t.cp.enabled = false ∧
        t.cp.acksSent = min (s.cp.acksSent + 1) 65535 ∧ t.cp.acksDropped = min (s.cp.acksDropped + 1) 65535 ∧
        t.cp.slots = s.cp.slots ∧ t.js.copyWrite.isSome = true) ∧
    (∀ (f : Frame) (q : Ack) (rest : List Ack), s.cp.receiver = .acking → s.cp.frame = some f → s.cp.queue = q :: rest →
      (∀ y, s.cp.slot = some y → y.phase ≠ .frameWait) →
      let sent (p : Cp) : Host.Outcome State Fault Refusal := .next { s with cp := { p with
        frame := none, queue := rest, acksSent := min (s.cp.acksSent + 1) 65535
        receiver := if rest = [] then s.cp.resume else .acking } }
      (f.slot = none → exec .ackFrameEnd s = sent s.cp) ∧
      ∀ (i : Fin 2) (b : Burst), f.slot = some i → s.cp.slots[i] = some b → exec .ackFrameEnd s =
        sent (if b.allResolved then freed i
          else { s.cp with slots := s.cp.slots.set i (some { b with ack := .sent, beatsLeft := none }) }))

/-- CP_COMMIT_NOTICE (R145): the record is committed, the watermark is its node sequence, stored grows and pending falls by
one. A notice of a record committed before the FORMAT of the journal moves no watermark (the model's inference, log 18).
With every record of the slot resolved an acknowledge not yet due falls due, and a slot whose acknowledge was sent or
dropped is free; with the receiver DISABLED it is dropped instead (R152). A stopped CP takes the notice and changes nothing
(R156). -/
def Obligations.CommitNoticeMovesWatermark : Prop :=
  ∀ (s : State) (i : Fin 2) (k : Nat) (c : Notice) (before : Bool) (rest : List CpNotice),
    s.cp.notices = { notice := c, slot := i, place := k, oldJournal := before } :: rest →
    (s.cp.stopped = true → exec .cpCommitNotice s = .next { s with cp := { s.cp with notices := rest } }) ∧
    ∀ (b : Burst) (r : BurstRecord), s.cp.stopped = false → s.cp.slots[i] = some b → b.records[k]? = some r →
      let node := s.cp.nodes[b.node]
      let records := b.records.set k { r with res := .committed }
      let all : Bool := b.verified && records.all (fun x => x.res.isResolved)
      let taken : Cp := { s.cp with
        notices := rest
        nodes := s.cp.nodes.set b.node
          { node with
            committedSeq := if before then node.committedSeq else some c.nodeSeq, stored := min (node.stored + 1) 65535, pending := node.pending - 1 } }
      let acking (p : Cp) : Cp :=
        if (p.receiver = .idle ∨ p.receiver = .waitIdle) ∧ p.queue ≠ [] then
          { p with receiver := .acking, resume := p.receiver } else p
      exec .cpCommitNotice s = .next
        { s with cp := acking (
          if all = true ∧ (b.ack = .sent ∨ b.ack = .dropped) then
            { taken with slots := s.cp.slots.set i none, order := s.cp.order.filter (fun j => j != i) }
          else if all = true ∧ b.ack = .notDue ∧ s.cp.receiver = .disabled then
            { taken with
              slots := s.cp.slots.set i none, order := s.cp.order.filter (fun j => j != i)
              acksDropped := min (s.cp.acksDropped + 1) 65535 }
          else if all = true ∧ b.ack = .notDue then
            { taken with
              slots := s.cp.slots.set i (some { b with records := records, ack := .due, beatsLeft := none })
              queue := s.cp.queue ++ [.slot i] }
          else { taken with slots := s.cp.slots.set i (some { b with records := records }) }) }

/-- REFUSAL_NOTICE (R61, R149), the commit notices before it taken (log 17): the record is refused and the node's queued
records in both slots are dropped; lost grows and pending falls by their number; last_seq goes back to committed_seq;
CAPTURE is latched; a slot with every record resolved is free when its acknowledge was sent or dropped, and otherwise its
acknowledge is due; the append ends. -/
def Obligations.RefusalRollsBackNode : Prop :=
  ∀ (s : State) (i : Fin 2) (k : Nat) (code : Result) (b : Burst) (r : BurstRecord) (q : InProgress),
    s.cp.refusal = some { slot := i, place := k, code := code } → s.cp.notices = [] → s.cp.stopped = false →
    s.cp.slots[i] = some b → b.records[k]? = some r → r.res = .inAppend → s.au.record = some q →
    q.origin = .capture i k → q.phase = .refused code → s.au.holdup = .idle → s.au.formatAsked = false →
    (∀ j : Fin 2, (s.cp.slots[j]).any (fun c => c.verified) = true → j ∈ s.cp.order) → s.cp.order.Nodup →
    let node := s.cp.nodes[b.node]
    let queued (j : Fin 2) : Nat := match s.cp.slots[j] with
      | some c => if c.node = b.node then (c.records.filter (fun x => x.res == .queued)).length else 0
      | none => 0
    let lost := 1 + queued 0 + queued 1
    let after (j : Fin 2) (c : Burst) : List BurstRecord :=
      (if j = i then c.records.set k { r with res := .auRefused } else c.records).map
        (fun x => if c.node = b.node ∧ x.res = .queued then { x with res := .dropped } else x)
    let resolved (j : Fin 2) (c : Burst) : Bool := c.verified && (after j c).all (fun x => x.res.isResolved)
    let fallsDue (j : Fin 2) : Bool := match s.cp.slots[j] with
      | some c => resolved j c && c.ack == .notDue
      | none => false
    let disabled : Prop := s.cp.receiver = .disabled
    ∃ t, exec .refusalNotice s = .next t ∧
      t = { s with
        au := { s.au with record := none }, hp := { s.hp with events := s.hp.events ||| 0x08 }
        cp := { s.cp with
          refusal := none, slots := t.cp.slots, order := t.cp.order, queue := t.cp.queue, receiver := t.cp.receiver
          resume := t.cp.resume, acksDropped := t.cp.acksDropped
          nodes := s.cp.nodes.set b.node
            { node with lost := min (node.lost + lost) 65535, pending := node.pending - lost, lastSeq := node.committedSeq } } } ∧
      (¬ disabled → t.cp.queue = s.cp.queue ++ (s.cp.order.filter fallsDue).map Ack.slot ∧
        t.cp.acksDropped = s.cp.acksDropped) ∧
      (disabled → t.cp.queue = s.cp.queue) ∧
      t.cp.receiver = (if (s.cp.receiver = .idle ∨ s.cp.receiver = .waitIdle) ∧ t.cp.queue ≠ [] then .acking
        else s.cp.receiver) ∧
      ∀ (j : Fin 2) (c : Burst), s.cp.slots[j] = some c →
        t.cp.slots[j] =
          if resolved j c = true ∧ (c.ack = .sent ∨ c.ack = .dropped ∨ (c.ack = .notDue ∧ disabled)) then none
          else some { c with
            records := after j c
            ack := bif fallsDue j then .due else c.ack
            beatsLeft := bif fallsDue j then none else c.beatsLeft }

/-- CAPTURE_SET (R152) while no frame is being sent: bad values are refused; otherwise the four settings are taken, a burst
in reception is thrown away and its slot released, the receiver waits for idle or sends what is due, or is DISABLED with the
queue dropped, each acknowledge counted and a slot freed when all its records are resolved; between two frames of ACKING
that is at once (the model's inference, log 23); during a frame it waits for its end. NODE_SET (R153): the flag, the class
set and, with FORGET, last_seq. Each asks for a control block write and waits for the write that carries the change.
NODE_READ (R154): the part asked for as it stands, and with the clear option the counters contained in it cleared. -/
def Obligations.CaptureCommandsAnswer : Prop :=
  (∀ (s : State) (e : Entry), s.cp.slot = some { entry := e, phase := .dispatched } →
    let waits : Option CpSlot := some
      { entry := e, phase := .writeWait (if s.js.copyWrite.isSome then .nextWrite else .thisWrite) }
    let refused : Host.Outcome State Fault Refusal := .next
      { s with cp := { s.cp with slot := none }, hp := s.hp.post (Response.plain e.tag .badParam []) }
    (e.opcode = 0x60 → (1 < e.param 0 ∨ 3 < e.param 1 ∨ e.param 2 < 2 ∨ e.param 3 = 0 ∨ e.payload ≠ []) →
      exec .captureSet s = refused) ∧
    (e.opcode = 0x60 → e.param 0 ≤ 1 → e.param 1 ≤ 3 → 2 ≤ e.param 2 → e.param 3 ≠ 0 → e.payload = [] →
      s.cp.frame = none →
      let set : Cp := { s.cp with
        enabled := e.param 0 == 1, rate := e.param 1, gap := e.param 2, window := e.param 3, reception := none
        slot := waits
        slots := match s.cp.reception with
          | some { slot := some i, .. } => s.cp.slots.set i none
          | _ => s.cp.slots }
      (e.param 0 = 1 → exec .captureSet s = .next (requestCopy { s with cp := { set with
        receiver := if s.cp.queue = [] then .waitIdle else .acking
        resume := if s.cp.queue = [] then s.cp.resume else .waitIdle } })) ∧
      (e.param 0 = 0 → s.cp.queue = [] → exec .captureSet s = .next (requestCopy { s with cp := { set with
        receiver := .disabled } })) ∧
      (e.param 0 = 0 → s.cp.queue ≠ [] →
        let freed (i : Fin 2) : Bool := (Ack.slot i ∈ s.cp.queue) && match set.slots[i] with
          | some b => b.verified && b.records.all (fun x => x.res.isResolved)
          | none => false
        ∃ t, exec .captureSet s = .next t ∧
          t = requestCopy { s with cp := { set with
            receiver := .disabled, queue := [], acksDropped := min (s.cp.acksDropped + s.cp.queue.length) 65535
            slots := t.cp.slots, order := s.cp.order.filter (fun i => !(freed i)) } } ∧
          ∀ i : Fin 2, t.cp.slots[i] =
            if freed i then none
            else if Ack.slot i ∈ s.cp.queue then (set.slots[i]).map (fun b => { b with ack := .dropped, beatsLeft := none })
            else set.slots[i])) ∧
    (∀ f, e.opcode = 0x60 → e.param 0 ≤ 1 → e.param 1 ≤ 3 → 2 ≤ e.param 2 → e.param 3 ≠ 0 → e.payload = [] →
      s.cp.receiver = .acking → s.cp.frame = some f → exec .captureSet s = .next
        { s with cp := { s.cp with slot := some { entry := e, phase := .frameWait } } }) ∧
    (e.opcode = 0x61 → (7 < e.param 0 ∨ 1 < e.param 1 ∨ 4095 < e.param16 2 ∨ 1 < e.param 4 ∨ e.payload ≠ []) →
      exec .nodeSet s = refused) ∧
    ∀ n : Fin 8, e.opcode = 0x61 → e.param 0 = n.val → e.param 1 ≤ 1 → e.param16 2 ≤ 4095 → e.param 4 ≤ 1 →
      e.payload = [] → exec .nodeSet s = .next (requestCopy
        { s with cp := { s.cp with
          slot := waits
          nodes := s.cp.nodes.set n { s.cp.nodes[n] with
            enabled := e.param 1 == 1, classes := BitVec.ofNat 16 (e.param16 2)
            lastSeq := if e.param 4 = 1 then none else (s.cp.nodes[n]).lastSeq } } })) ∧
  ∀ (s : State) (e : Entry), s.cp.slot = some { entry := e, phase := .dispatched } → e.opcode = 0x62 →
    let answers (p : Cp) (r : Result) (fields : List Byte) : Host.Outcome State Fault Refusal := .next
      { s with cp := { p with slot := none }, hp := s.hp.post (Response.plain e.tag r fields) }
    (8 < e.param 0 ∨ 1 < e.param 1 ∨ 1 < e.param 2 ∨ e.payload ≠ [] → exec .nodeRead s = answers s.cp .badParam []) ∧
    (e.payload = [] → e.param 2 ≤ 1 →
      (∀ n : Fin 8, e.param 0 = n.val →
        let x := s.cp.nodes[n]
        let cleared (y : Node) : Cp := if e.param 2 = 1 then { s.cp with nodes := s.cp.nodes.set n y } else s.cp
        (e.param 1 = 0 → exec .nodeRead s = answers (cleared { x with bursts := 0 }) .done
          ([byte x.enabled.toNat] ++ be16 x.classes.toNat
            ++ [byte (x.lastSeq.isSome.toNat + 2 * x.committedSeq.isSome.toNat), byte (x.lastSeq.getD 0),
              byte (x.committedSeq.getD 0), byte x.pending] ++ be16 x.bursts)) ∧
        (e.param 1 = 1 → exec .nodeRead s = answers
          (cleared { x with stored := 0, duplicates := 0, badChecks := 0, refused := 0, noRoom := 0, lost := 0 }) .done
          (be16 x.stored ++ be16 x.duplicates ++ be16 x.badChecks ++ be16 x.refused ++ be16 x.noRoom ++ be16 x.lost))) ∧
      (e.param 0 = 8 →
        (e.param 1 = 0 → exec .nodeRead s = answers s.cp .done
          [byte s.cp.receiver.code, byte s.cp.enabled.toNat, byte s.cp.rate, byte s.cp.gap, byte s.cp.window,
            byte (s.cp.slots[0].isSome.toNat + s.cp.slots[1].isSome.toNat), byte s.cp.queue.length]) ∧
        (e.param 1 = 1 → exec .nodeRead s = answers
          (if e.param 2 = 1 then
            { s.cp with framing := 0, badHeaders := 0, noSlot := 0, acksSent := 0, acksDropped := 0 } else s.cp) .done
          (be16 s.cp.framing ++ be16 s.cp.badHeaders ++ be16 s.cp.noSlot ++ be16 s.cp.acksSent ++ be16 s.cp.acksDropped))))

/-! ## The Host Port -/

/-- DISPATCH: the head entry goes to its unit's slot when that is free, and waits when it is not (R164); one whose opcode no
unit carries out leaves the queue and is answered UNKNOWN_COMMAND, taking no slot and staying outstanding (R165). An APPEND
is tested when it is handed to the AU, which needs a free place: BAD_PARAM for a payload above 232 bytes or a class above
15, BAD_CLASS for the classes 12 to 15, and the place stays free; otherwise it waits in the place (R47). That APPEND and the
DISPATCH of an APPEND are one happening is the model's choice (log 25). -/
def Obligations.DispatchHandsHeadToUnit : Prop :=
  ∀ (s : State) (e : Entry) (rest : List Entry), s.hp.commands = e :: rest →
    let op := e.opcode.toNat
    let known : List Nat := [0x11, 0x20, 0x21, 0x22, 0x23, 0x30, 0x31, 0x32, 0x33, 0x34, 0x35, 0x36, 0x40, 0x41, 0x42, 0x50,
      0x51, 0x52, 0x60, 0x61, 0x62]
    let t := { s with hp := { s.hp with commands := rest } }
    let unknown : Response := { tag := e.tag, result := .unknownCommand, lost := false, limited := false, fields := [] }
    (op ∉ known → exec .dispatch s = .next { t with hp := t.hp.post unknown }) ∧
    (op = 0x11 →
      let refused (r : Result) := t.hp.post { tag := e.tag, result := r, lost := false, limited := false, fields := [] }
      let handed : Host.Outcome State Fault Refusal := .next (if 2 ≤ s.au.hostLane.length then s
        else if 232 < e.payload.length ∨ 15 < e.param 0 then { t with hp := refused .badParam }
        else if 12 ≤ e.param 0 then { t with hp := refused .badClass }
        else { t with au := { s.au with hostLane := s.au.hostLane ++ [{ entry := e, state := .waiting }] } })
      exec .dispatch s = handed ∧ exec .append s = handed) ∧
    (op ≠ 0x11 → exec .append s = .next s) ∧
    (0x20 ≤ op → op ≤ 0x23 → exec .dispatch s = .next (if s.js.slot = none then
      { t with js := { s.js with slot := some { entry := e, phase := .dispatched } } } else s)) ∧
    (0x30 ≤ op → op ≤ 0x36 → exec .dispatch s = .next (if s.cu.slot = none then
      { t with cu := { s.cu with slot := some { entry := e, scan := none } } } else s)) ∧
    (0x40 ≤ op → op ≤ 0x42 → exec .dispatch s = .next (if s.tb.slot = none then
      { t with tb := { s.tb with slot := some { entry := e, old := none } } } else s)) ∧
    (0x50 ≤ op → op ≤ 0x52 → exec .dispatch s = .next (if s.wu.slot = none then
      { t with wu := { s.wu with slot := some e } } else s)) ∧
    (0x60 ≤ op → op ≤ 0x62 → exec .dispatch s = .next (if s.cp.slot = none then
      { t with cp := { s.cp with slot := some { entry := e, phase := .dispatched } } } else s))

/-- CMD (R161 to R163): the first of the four tests that fails rejects the entry with its reason; one that passes joins the
command queue, its tag the outstanding tags, and the outstanding count grows. RSP and RSP_POP (R163, R167): the port byte
chooses the front entry or the empty entry, whose 16 bytes MISO returns; with 16 bytes clocked a chosen front entry leaves
the queue, its tag leaves the outstanding tags and the count falls; fewer bytes, or the empty entry, pop nothing. CS# is low
from the port byte on and high after the rise (R157). -/
def Obligations.HostTransactionsMoveTheQueues : Prop :=
  (∀ (s : State) (bytes : List Byte), s.pc.supply.powered = true →
    let len := rd16 bytes 0
    let e : Entry :=
      { opcode := bytes.getD 2 0, tag := bytes.getD 3 0, params := (bytes.drop 4).take 6, payload := bytes.drop 10 }
    let failed : Option Reject :=
      if bytes.length < 2 ∨ len < 8 ∨ 248 < len ∨ bytes.length ≠ len + 2 then some .length
      else if s.hp.offline = true then some .notReady
      else if 8 ≤ s.hp.outstanding then some .full
      else if e.tag = 255 ∨ e.tag ∈ s.hp.tags then some .tag
      else none
    exec (.cmd bytes) s = .next
      { closeTx s with
        pc := { s.pc with csLow := false }
        hp := match failed with
          | some r => { s.hp with tx := none, reject := r, lastAccepted := false }
          | none => { s.hp with
            tx := none, commands := s.hp.commands ++ [e], tags := s.hp.tags ++ [e.tag], outstanding := s.hp.outstanding + 1
            lastAccepted := true } }) ∧
  ∀ s : State, s.pc.supply.powered = true →
    let ended : State := { closeTx s with pc := { s.pc with csLow := false } }
    (∀ x p, s.hp.tx = some { status := x, port := p } → p = .statusOnly → exec .rsp s = .next
      { closeTx s with
        pc := { s.pc with csLow := true }, hp := { s.hp with tx := some { status := x, port := .rsp s.hp.responses.head? } } }) ∧
    (∀ x k r rest, s.hp.tx = some { status := x, port := .rsp (some r) } → s.hp.responses = r :: rest →
      exec (.rspPop k) s = .next (if k < 16 then ended else
        { ended with hp := { s.hp with
          tx := none, responses := rest, tags := s.hp.tags.erase r.tag, outstanding := s.hp.outstanding - 1 } })) ∧
    (∀ x k, s.hp.tx = some { status := x, port := .rsp none } → exec (.rspPop k) s = .next ended) ∧
    (∀ x r, s.hp.tx = some { status := x, port := .rsp (some r) } →
      misoByte s 0 = r.tag ∧ misoByte s 1 = byte r.result.code ∧
        misoByte s 2 = byte (r.lost.toNat + 2 * r.limited.toNat) ∧
        (∀ k, k < 13 → misoByte s (3 + k) = r.fields.getD k 0) ∧ ∀ k, 16 ≤ k → misoByte s k = 0) ∧
    ∀ x, s.hp.tx = some { status := x, port := .rsp none } → misoByte s 0 = 0xFF ∧ ∀ k, 1 ≤ k → misoByte s k = 0

/-- The port bytes (R159): 10h CMD, 20h RSP, 30h WIN, 40h STS, 50h ACK, 51h MASK, any other value none; such a byte is
counted up to 255. STATUS_BYTE, STS, WIN, WIN_END: the status byte with its six indications (R158) and the 16 bytes of the
snapshot (R172) are taken once and kept for the transaction. MISO returns window bytes from the offset on, going round after
byte 255, and 00h for a cursor number above 3 (R170). The end of a transaction shows each window change held for it (R171).
-/
def Obligations.PortsChooseAtTheirByte : Prop :=
  (portOf 0x10 = some .cmd ∧ portOf 0x20 = some .rsp ∧ portOf 0x30 = some .win ∧ portOf 0x40 = some .sts ∧
    portOf 0x50 = some .ack ∧ portOf 0x51 = some .mask ∧
    ∀ p : Byte, p ∉ [0x10, 0x20, 0x30, 0x40, 0x50, 0x51] → portOf p = none) ∧
  (∀ s : State,
    (statusByteOf s).getLsbD 7 = s.hp.offline ∧
    ((statusByteOf s).getLsbD 6 = true ↔ s.hp.outstanding = 8) ∧
    ((statusByteOf s).getLsbD 5 = true ↔ s.hp.responses ≠ []) ∧
    ((statusByteOf s).getLsbD 4 = true ↔ ∃ i, s.hp.flags.getLsbD i = true ∧ s.hp.mask.getLsbD i = true) ∧
    (statusByteOf s).getLsbD 3 = s.hp.lastAccepted ∧
    ((statusByteOf s).getLsbD 2 = true ↔ s.js.journal = .ready) ∧
    (statusByteOf s).getLsbD 1 = false ∧ (statusByteOf s).getLsbD 0 = false) ∧
  (∀ s : State, s.pc.supply.powered = true →
    let supply := match s.pc.supply with
      | .start => 1
      | .coldInit => 2
      | .recover => 3
      | .run => 4
      | _ => 5
    let journal := match s.js.journal with
      | .notReady => 0
      | .ready => 1
      | .formatting => 2
    let reject := match s.hp.reject with
      | .noReject => 0
      | .length => 1
      | .notReady => 2
      | .full => 3
      | .tag => 4
    let next := match s.au.nextSeq with
      | .value n => n
      | _ => 0
    snapshotOf s =
      [byte (16 * supply + journal), s.hp.flags, s.hp.mask, byte s.hp.commands.length, byte s.hp.responses.length,
        byte (16 * s.hp.outstanding + reject), byte (if s.js.journal = .ready then s.js.used else 0), byte s.hp.unknownPorts]
        ++ be32 next ++ be32 s.tb.seconds) ∧
  ∀ s : State, s.pc.supply.powered = true →
    let shown (x : Cursor) : Cursor := match x.heldWindow with
      | some w => { x with window := w, heldWindow := none }
      | none => x
    let took (x : Byte) (p : TxPort) (unknown : Nat) : Host.Outcome State Fault Refusal := .next
      { closeTx s with
        pc := { s.pc with csLow := true }, hp := { s.hp with tx := some { status := x, port := p }, unknownPorts := unknown } }
    exec .winEnd s = .next
      { s with
        pc := { s.pc with csLow := false }, hp := { s.hp with tx := none }
        cu := { s.cu with cursors := s.cu.cursors.map shown } } ∧
    exec .statusByte s = took (statusByteOf s) .statusOnly s.hp.unknownPorts ∧
    (∀ x, s.hp.tx = some { status := x, port := .statusOnly } →
      exec .sts s = took x (.sts (snapshotOf s)) s.hp.unknownPorts ∧
      (∀ c o : Byte,
        let cursor : Option (Fin 4) := if s.hp.offline = true ∨ 4 ≤ c.toNat then none else some (Fin.ofNat 4 c.toNat)
        exec (.win c o) s = took x (.win cursor o.toNat) s.hp.unknownPorts) ∧
      ∀ p : Byte, p ∉ [0x10, 0x20, 0x30, 0x40, 0x50, 0x51] →
        exec (.unknownPort p) s = took x .unknown (min 255 (s.hp.unknownPorts + 1))) ∧
    (∀ x snap k, s.hp.tx = some { status := x, port := .sts snap } → misoByte s k = snap.getD k 0) ∧
    (∀ x c o k, s.hp.tx = some { status := x, port := .win (some c) o } →
      misoByte s (2 + k) = (s.cu.cursors[c]).window.getD ((o + k) % 256) 0) ∧
    ∀ x o k, s.hp.tx = some { status := x, port := .win none o } → misoByte s k = 0

/-- ACK and MASK (R173, R174, R175) with two whole bytes while the HP is online: members 1-7 named by ACK's second byte are
cleared; MASK's second byte replaces the enables; otherwise neither changes anything. INT# is asserted exactly when a flag
is set whose enable is set: the eighth law. MISO is driven exactly while CS# is low (R202). -/
def Obligations.AckAndMaskRuleInt : Prop :=
  ∀ (s : State) (bytes : List Byte), s.pc.supply.powered = true →
    let taken : Prop := 2 ≤ bytes.length ∧ s.hp.offline = false
    (∃ t, exec (.ack bytes) s = .next t ∧ t = { closeTx s with
        pc := { s.pc with csLow := false }, hp := { s.hp with tx := none, events := t.hp.events } } ∧
      ∀ i, t.hp.events.getLsbD i =
        (s.hp.events.getLsbD i && !(decide taken && decide (1 ≤ i) && (bytes.getD 1 0).getLsbD i))) ∧
    exec (.mask bytes) s = .next
      { closeTx s with
        pc := { s.pc with csLow := false }
        hp := { s.hp with tx := none, mask := if taken then bytes.getD 1 0 else s.hp.mask } } ∧
    (s.hp.intAsserted = true ↔ ∃ i, i < 8 ∧ s.hp.flags.getLsbD i = true ∧ s.hp.mask.getLsbD i = true) ∧
    ((pins s).int = .low ↔ s.hp.intAsserted = true) ∧
    ((pins s).miso = .data ↔ s.pc.csLow = true)

/-! ## The Power Controller -/

/-- HOLDUP in RUN (R176, R181 to R183): the HP is OFFLINE with nothing outstanding, the slots of TB, WU, JS, CU and CP are
free, the CP and CU are stopped, and the AU is asked to stop. A burst slot is free but for one whose record is in append,
which is kept with its acknowledge dropped (the model's reading of R144, log 42); boundary events not yet taken and hold
floor reports on their way are dropped (the model's choices, logs 39, 29). With no record in progress the AU closes at once
(R64): POWER_DOWN, if it fits, is stamped, numbered and written OPEN at the fill point with the number of records discarded;
with numbering exhausted it is dropped uncounted, and during FORMATTING none is built. A FORMAT stopped in its third phase
keeps the steps made, which the sender says (log 31), and stays FORMATTING. AU_ENDED (R184): a clearing is abandoned, the
sender saying how far it had come (log 10), and the final control block write requested; its end takes the J64 to START,
each block with the values of START, where the model chooses some (log 6) and keeps the beat phase (its inference, log 33).
-/
def Obligations.HoldupClosesTheJournal : Prop :=
  (∀ (s : State) (made : Nat), s.pc.supply = .run →
    (made = 0 ∨ s.js.clearing ≠ some 63 ∨ ∀ e n, s.js.slot ≠ some { entry := e, phase := .formatClearing n }) →
    let queued (i : Fin 2) : Nat := match s.cp.slots[i] with
      | some b => (b.records.filter (fun x => x.res == .queued)).length
      | none => 0
    let lost := s.au.systemLane.length + (s.au.hostLane.filter (fun p => p.state == .waiting)).length + (queued 0 + queued 1)
    ∃ t, exec (.holdup (.falls made)) s = .next t ∧
      t = { s with
        pc := { s.pc with supply := .holdup, pfiLow := true, discarded := queued 0 + queued 1, step := t.pc.step }
        hp := { s.hp with offline := true, commands := [], responses := [], outstanding := 0, tags := [] }
        tb := { s.tb with slot := none, staged := none }
        wu := { s.wu with slot := none, boundaries := 0 }
        js := { s.js with slot := none, floorReports := [] }
        cu := { s.cu with
          slot := none, stopped := true
          cursors := s.cu.cursors.map (fun c => { c with fetchTag := none, beatsLeft := none }) }
        cp := { s.cp with
          receiver := .disabled, reception := none, queue := [], frame := none, slot := none, stopped := true
          slots := t.cp.slots, order := s.cp.order.filter (fun i => (t.cp.slots[i]).isSome) }
        au := t.au, mem := t.mem } ∧
      (∀ i : Fin 2,
        ((∃ r, s.cp.reception = some r ∧ r.slot = some i) → t.cp.slots[i] = none) ∧
        ((∀ r, s.cp.reception = some r → r.slot ≠ some i) → t.cp.slots[i] = match s.cp.slots[i] with
          | some b => if b.records.any (fun x => x.res == .inAppend) then some
              { b with
                records := b.records.map (fun x => if x.res = .queued then { x with res := .dropped } else x)
                ack := .dropped, beatsLeft := none } else none
          | none => none)) ∧
      (s.au.record ≠ none → t.au = { s.au with holdup := .asked } ∧ t.mem = s.mem ∧ t.pc.step = .closingAu) ∧
      (s.au.record = none → (s.js.journal = .formatting ∨ (s.js.journal = .ready ∧ s.au.nextSeq = .exhausted)) →
        t.au = { s.au with paused := true, systemLane := [], hostLane := [], holdup := .ended } ∧ t.mem = s.mem ∧
          t.pc.step = .auEnded) ∧
      ∀ n, s.au.record = none → s.js.journal = .ready → s.au.nextSeq = .value n → 1 ≤ s.au.fillPoint →
        s.au.fillPoint ≤ 252 → s.mem.wf = true →
        let g := s.js.filling
        let x := g.val * 2048 + s.au.fillPoint * 8
        let bytes : List Byte :=
          [0x3C, 4, 4, byte (12 + 16 * 2 + 128 * (!s.tb.isSet).toNat), 0xFF, 0x00] ++ be16 0 ++ be32 n
            ++ be32 s.tb.seconds ++ be16 s.tb.ticks ++ be16 0 ++ be16 0 ++ be16 0 ++ [3, 0] ++ be16 lost
        ∃ r, t.au = { s.au with
            paused := true, systemLane := [], hostLane := [], holdup := .powerDown, fillPoint := s.au.fillPoint + 4
            nextSeq := if n = 4294967295 then .exhausted else .value (n + 1), record := some r } ∧
          t.pc.step = .closingAu ∧ r.origin = .system .powerDown ∧ r.phase = .writing ∧ r.seq = n ∧ r.seg = g ∧
          r.unit = s.au.fillPoint ∧
          ∀ a, t.mem.read a =
            if x ≤ a ∧ a < x + 28 then bytes.getD (a - x) 0
            else if s.au.fillPoint = 1 ∧ headerFirst s.mem g ≠ n ∧ g.val * 2048 ≤ a ∧ a < g.val * 2048 + 8 then
              (segHeader .filling n).getD (a - g.val * 2048) 0
            else s.mem.read a) ∧
  (∀ (s : State) (made : Nat) (e : Entry) (n : Nat), s.pc.supply = .run → 1 ≤ made → s.js.clearing = some 63 →
    s.js.slot = some { entry := e, phase := .formatClearing n } → s.js.journal = .formatting → s.au.record = none →
    (s.js.index[1]).state = .prepared →
    ∃ t, exec (.holdup (.falls made)) s = .next t ∧ t.pc.supply = .holdup ∧ t.pc.step = .auEnded ∧ t.js.slot = none ∧
      t.js.journal = .formatting ∧ t.js.index[0] = IndexEntry.empty .filling ∧ t.js.filling = 0 ∧
      t.mem = (s.mem.zero (63 * 2048) 2048).writeCells (cellsAt 0 (segHeader .filling 0)) ∧
      t.au.nextSeq = (if 3 ≤ made ∧ e.param 0 = 1 then .value 1 else s.au.nextSeq) ∧
      (∀ k : Fin 8, (t.cp.nodes[k]).committedSeq = if 4 ≤ made then none else (s.cp.nodes[k]).committedSeq) ∧
      t.js.reclaimed = if 5 ≤ made then 0 else s.js.reclaimed) ∧
  (∀ (s : State) (z : Nat), s.pc.supply = .holdup → s.pc.step = .auEnded →
    exec (.auEnded z) s = .next (requestCopy
      { s with
        pc := { s.pc with step := .writing (if s.js.copyWrite.isSome then .nextWrite else .thisWrite) }
        js := { s.js with clearing := none }
        mem := match s.js.clearing with
          | some g => s.mem.zero (g.val * 2048 + (256 - z) * 8) ((256 - (256 - z)) * 8)
          | none => s.mem })) ∧
  ∀ (s : State) (w : CopyWrite), s.pc.supply = .holdup → s.pc.step = .writing .thisWrite → s.js.copyWrite = some w →
    s.pc.vmain = true →
    ∃ t, exec .controlBlockWriteEnd s = .next t ∧ t.pc.supply = .start ∧ t.pc.latch = s.pc.latch ∧ t.mem = s.mem ∧
      t.copyA = (if w.target = .a then w.values else s.copyA) ∧ t.copyB = (if w.target = .b then w.values else s.copyB) ∧
      t.js = Js.start ∧ t.au = Au.start ∧ t.cu = Cu.start ∧ t.wu = Wu.start ∧ t.cp = Cp.start ∧ t.hp = Hp.start ∧
      t.tb = Tb.atStart s.tb.seconds s.tb.ticks s.tb.isSet s.tb.beatPhase

/-- The supply table (R178, R179, R186, R187). RESET_ASSERT and VMAIN_LOST stop a powered main domain at once: it is lost,
the TB's counting part goes on, and with no write in flight the record memory and both copies stay; a copy being written is
as it was, whole, or has a wrong check. RESET_RELEASE, VMAIN_RISE, VBAT_FALL and VBAT_RISE move between the supply states;
VBAT_FALL without VMAIN, and VMAIN_LOST without VBAT, set the latch with BACKUP_LOST and enter OFF. VMAIN lost in RESET,
where nothing runs, changes nothing of the battery domain. A rise of PFI, and its fall outside RUN, change nothing but the
level (R185; that HOLDUP carries the change of PFI is the model's choice, log 27). Some of the values a block has after the
stop are the model's choice (log 6), and that the beat phase is kept is its inference (log 33). -/
def Obligations.SupplyStatesFollowTheTable : Prop :=
  ∀ (s : State) (cut : Cut),
    let stopped (t : State) : Prop :=
      t.js = Js.start ∧ t.au = Au.start ∧ t.cu = Cu.start ∧ t.wu = Wu.start ∧ t.cp = Cp.start ∧ t.hp = Hp.start ∧
        t.tb = Tb.atStart s.tb.seconds s.tb.ticks s.tb.isSet s.tb.beatPhase ∧ t.pc.latch = s.pc.latch ∧
        t.pc.reason = s.pc.reason ∧
        ((∀ r, s.au.record = some r → r.phase ≠ .writing) → s.js.clearing = none → s.pc.scanning = false → t.mem = s.mem) ∧
        (s.js.copyWrite = none → t.copyA = s.copyA ∧ t.copyB = s.copyB) ∧
        ∀ w, s.js.copyWrite = some w →
          let left (old new : ControlCopy) : Prop := new = old ∨ new = w.values ∨ new.checkOk = false
          (w.target = .a → left s.copyA t.copyA ∧ t.copyB = s.copyB) ∧
          (w.target = .b → left s.copyB t.copyB ∧ t.copyA = s.copyA)
    let moved (vmain : Bool) (supply : Supply) : Host.Outcome State Fault Refusal :=
      .next { s with pc := { s.pc with vmain := vmain, supply := supply } }
    (s.pc.supply.powered = true → ∃ t, exec (.resetAssert cut) s = .next t ∧ t.pc.supply = .reset ∧ t.pc.resetLow = true ∧
      stopped t) ∧
    (s.pc.supply = .off ∨ s.pc.supply = .retain → exec (.resetAssert cut) s = .next
      { s with pc := { s.pc with resetLow := true } }) ∧
    exec .resetRelease s = .next
      { s with pc := { s.pc with resetLow := false, supply := if s.pc.supply = .reset then .start else s.pc.supply } } ∧
    (s.pc.vmain = true → s.pc.vbat = true → s.pc.supply.powered = true → ∃ t, exec (.vmainLost cut) s = .next t ∧
      t.pc.supply = .retain ∧ t.pc.vmain = false ∧ stopped t) ∧
    (s.pc.vmain = true → s.pc.vbat = true → s.pc.supply = .reset → ∃ t, exec (.vmainLost cut) s = .next t ∧
      t.pc.supply = .retain ∧ t.pc.vmain = false ∧ stopped t ∧ t.mem = s.mem ∧ t.copyA = s.copyA ∧ t.copyB = s.copyB) ∧
    (s.pc.vmain = true → s.pc.vbat = false → ∃ t, exec (.vmainLost cut) s = .next t ∧ t.pc.supply = .off ∧
      t.pc.vmain = false ∧ t.pc.latch = true ∧ t.pc.reason = .backupLost) ∧
    (s.pc.vmain = false → exec .vmainRise s = moved true (if s.pc.resetLow then .reset else .start)) ∧
    (s.pc.vbat = true → s.pc.vmain = true → exec .vbatFall s = .next { s with pc := { s.pc with vbat := false } }) ∧
    (s.pc.vbat = true → s.pc.vmain = false → ∃ t, exec .vbatFall s = .next t ∧ t.pc.supply = .off ∧ t.pc.vbat = false ∧
      t.pc.latch = true ∧ t.pc.reason = .backupLost) ∧
    exec .vbatRise s = .next
      { s with pc := { s.pc with vbat := true, supply := if s.pc.supply = .off then .retain else s.pc.supply } } ∧
    exec (.holdup .rises) s = .next { s with pc := { s.pc with pfiLow := false } } ∧
    ∀ made : Nat, s.pc.supply ≠ .run → exec (.holdup (.falls made)) s = .next { s with pc := { s.pc with pfiLow := true } }

/-- What an abrupt stop leaves of the writes in flight in a powered main domain (R186, R187), the sender saying how far each
had come (the model's choice, log 10). Of a record write the first bytes are new and the rest hold what they held before:
stopped before its first byte the memory is as the arbiter's choice found it, and stopped after its last as the commit
leaves it. Of a clearing the upper units are zeroed and no other byte changes; when the last clearing of FORMAT or of cold
initialisation has been made whole, the first bytes of segment 0's header may be written (the model's inference, log 19). Of
recovery's repairs the first bytes are written (R195). -/
def Obligations.AbruptStopsCutWrites : Prop :=
  (∀ (s : State) (cut : Cut), s.pc.supply.powered = true →
    ∃ t, exec (.resetAssert cut) s = .next t ∧
      (∀ r, s.au.record = some r → r.phase = .writing → s.js.clearing = none → s.pc.scanning = false →
        t.mem = (s.mem.writeCells r.undo).writeCells (r.writes.take cut.record)) ∧
      (∀ g, s.js.clearing = some g → (∀ r, s.au.record = some r → r.phase ≠ .writing) → s.pc.scanning = false →
        (g ≠ 63 ∨ cut.zeroed < 256 ∨
          (s.pc.supply ≠ .coldInit ∧ ∀ e n, s.js.slot ≠ some { entry := e, phase := .formatClearing n })) →
        s.mem.wf = true → cut.zeroed ≤ 256 →
        ∀ a, t.mem.read a =
          if g.val * 2048 + (256 - cut.zeroed) * 8 ≤ a ∧ a < g.val * 2048 + 2048 then 0 else s.mem.read a) ∧
      (s.js.clearing = some 63 → (∀ r, s.au.record = some r → r.phase ≠ .writing) → s.pc.scanning = false →
        (s.pc.supply = .coldInit ∨ ∃ e n, s.js.slot = some { entry := e, phase := .formatClearing n }) → cut.zeroed = 256 →
        t.mem = (s.mem.zero (63 * 2048) 2048).writeCells ((cellsAt 0 (segHeader .filling 0)).take cut.record)) ∧
      (s.pc.scanning = true → s.au.record = none → s.js.clearing = none → s.js.copyWrite = none →
        t.mem = s.mem.writeCells
          ((recoveryOf s.mem (if s.pc.chosen = .a then s.copyA else s.copyB).filling).repairs.take cut.repairs))) ∧
  ∀ (s t : State) (r : InProgress) (cut : Cut), s.mem.wf = true → s.au.record = none → s.pc.supply.powered = true →
    1 ≤ s.au.fillPoint → s.js.clearing = none → s.pc.scanning = false → exec .arbiterChoice s = .next t →
    t.au.record = some r → r.phase = .writing →
    ∃ v, exec (.resetAssert cut) t = .next v ∧
      (cut.record = 0 → v.mem = s.mem) ∧
      (r.writes.length ≤ cut.record →
        v.mem = t.mem.writeCells (commitCells (r.seg.val * 2048 + r.unit * 8) r.data r.seq))

/-- RETENTION_LATCH_EXAMINE (R180, R188, R196): with RESET# high and PFI not low, the latch set begins COLD_INIT; clear, the
valid later copy is chosen and RECOVER begins, or without one the latch is set with CONTROL_LOST. That cold initialisation
keeps the beat phase is the model's choice (log 7). RECOVERY_SCAN_END (R191 to R194): the repairs are made; the journal is
as recovery found it, with a control block write requested for an F opened without a record, and the segment after F is
prepared; numbering, fill point, settings and node table come from the records found and the copy; the HP's flags and mask
are clear, and its transaction, reject reason and counters stay until RUN (the model's inferences, logs 21, 24); RECOVERED
is requested. What recovery finds, other statements say. -/
def Obligations.StartChoosesAndRecoveryRebuilds : Prop :=
  (∀ s : State, s.pc.supply = .start → s.pc.resetLow = false → s.pc.pfiLow = false →
    let cold (t : State) : Prop :=
      t.pc.supply = .coldInit ∧ t.pc.latch = true ∧ t.tb = Tb.atStart 0 0 false s.tb.beatPhase ∧
        t.au = { s.au with nextSeq := .value 1 } ∧ t.cp = Cp.start ∧ t.mem = s.mem ∧
        t.js = { s.js with
          policy := .wrap, mark := 56, used := 0, head := 0, filling := 0, clearing := some 0
          index := Vector.replicate 64 (IndexEntry.empty .clearing) }
    let recovers (id : CopyId) : Host.Outcome State Fault Refusal :=
      .next { s with pc := { s.pc with supply := .recover, chosen := id, scanning := true } }
    (s.pc.latch = true → ∃ t, exec .retentionLatchExamine s = .next t ∧ cold t ∧ t.pc.reason = s.pc.reason) ∧
    (s.pc.latch = false → s.copyA.valid = true → s.copyB.valid = true →
      exec .retentionLatchExamine s = recovers (laterCopy s.copyA s.copyB)) ∧
    (s.pc.latch = false → s.copyA.valid = true → s.copyB.valid = false → exec .retentionLatchExamine s = recovers .a) ∧
    (s.pc.latch = false → s.copyA.valid = false → s.copyB.valid = true → exec .retentionLatchExamine s = recovers .b) ∧
    (s.pc.latch = false → s.copyA.valid = false → s.copyB.valid = false →
      ∃ t, exec .retentionLatchExamine s = .next t ∧ cold t ∧ t.pc.reason = .controlLost)) ∧
  ∀ s : State, s.pc.supply = .recover → s.pc.scanning = true →
    let c := if s.pc.chosen = .a then s.copyA else s.copyB
    let r := recoveryOf s.mem c.filling
    let watermark (n : Fin 8) : Option Nat := watermarkOf r.kept n
    ∃ t, exec .recoveryScanEnd s = .next t ∧ t.mem = s.mem.writeCells r.repairs ∧ t.pc = { s.pc with scanning := false } ∧
      t.au = { Au.start with
        fillPoint := r.fillPoint
        nextSeq := match r.top with
          | some m => if m < 4294967295 ∧ c.hint ≠ 0 then .value (max (m + 1) c.hint) else .exhausted
          | none => if c.hint = 0 then .exhausted else .value c.hint
        systemLane := [{ kind := .recovered, payload := [2, byte (causeOf r.kept)] ++
          (be16 r.voided ++ be16 r.bad ++ [byte (if s.pc.chosen = .a then 0 else 1)]) }] } ∧
      t.cp = { Cp.start with
        enabled := c.captureOn, rate := c.rate, gap := c.gap, window := c.window
        nodes := Vector.ofFn (fun n =>
          { Node.start with
            enabled := (c.nodes[n]).enabled, classes := (c.nodes[n]).classes, lastSeq := watermark n
            committedSeq := watermark n }) } ∧
      t.wu = Wu.start ∧ t.hp = { s.hp with events := 0, mask := 0 } ∧
      t.tb = { s.tb with staged := none, adjustment := 0, slot := none } ∧
      let rebuilt : State :=
        { t with
          cu := Cu.start
          js := { Js.start with
            head := r.head, filling := r.filling, used := r.used, index := r.index, policy := c.policy, mark := c.mark
            lastCopy := s.pc.chosen, lastGeneration := c.generation } }
      let asked := if r.settle = .openedEmpty then requestCopy rebuilt else rebuilt
      t.js = (prepare asked).js ∧ t.cu = (prepare asked).cu

/-- What recovery makes of the record memory. A segment header reads as it is stored when its CRC-8 and its state are right;
a bad one reads SEALED with the number of a record at unit 1 whose header check is valid, and FREE otherwise, and is
rewritten (R189). The walk of a segment takes each place by R190: an OPEN record and a COMMITTED one with a wrong check are
made VOID and counted, an unreadable place is zeroed with all that follows it, and then no unit is left after the last
place, zeroed places included (R191; log 13). F is a segment that reads FILLING, of several the one with the highest first
number, 0 counting as highest; with none it is the copy's, or the one after the highest SEALED segment, or that segment
itself (R191). The used segments reach back from F while each is SEALED with a first number below that of the next (R192).
Ties of equal first numbers go to the lower segment number, the model's choice (log 13). -/
def Obligations.RecoveryReadsTheJournal : Prop :=
  (∀ (m : Memory) (g : Seg),
    let h := m.bytes (g.val * 2048) 8
    let right : Prop := (h.getD 0 0 = 0x00 ∨ h.getD 0 0 = 0x55 ∨ h.getD 0 0 = 0xAA) ∧ crc8 (h.take 5) = h.getD 5 0
    let r := stored m g 1
    let record : Prop := (r.state = .opened ∨ r.state = .committed ∨ r.state = .void) ∧
      (crc16 (((m.bytes (g.val * 2048 + 8) 24).drop 1).take 19)).toNat = r.headerCheck
    (right → readHeader m g =
      { reading := if h.getD 0 0 = 0x00 then .free else if h.getD 0 0 = 0x55 then .filling else .sealed
        first := rd32 h 1, repair := [] }) ∧
    (¬ right → record → readHeader m g =
      { reading := .sealed, first := r.seq, repair := cellsAt (g.val * 2048) (segHeader .sealed r.seq) }) ∧
    (¬ right → ¬ record → readHeader m g =
      { reading := .free, first := 0, repair := cellsAt (g.val * 2048) (segHeader .free 0) })) ∧
  (∀ (m : Memory) (g : Seg) (fuel u : Nat),
    let r := stored m g u
    let w := walkFrom m g (fuel + 1) u
    let rest := walkFrom m g fuel (u + r.size)
    let fits : Prop := r.state ≠ .other ∧ 3 ≤ r.size ∧ r.size ≤ 32 ∧ r.size = 3 + (r.len + 7) / 8 ∧ u + r.size ≤ 256
    let good : Prop := headerCheckOk m g u = true ∧ payloadCheckOk m g u = true
    let void : Host.Cell := (g.val * 2048 + u * 8, 0x66)
    (placeState m g u = .free → w = { repairs := [], kept := [], seqs := [], voided := 0, bad := 0, fill := u }) ∧
    (placeState m g u ≠ .free → fits → r.state = .opened →
      w = { rest with repairs := void :: rest.repairs, seqs := r.seq :: rest.seqs, voided := rest.voided + 1 }) ∧
    (placeState m g u ≠ .free → fits → r.state = .committed → good →
      w = { rest with kept := r :: rest.kept, seqs := r.seq :: rest.seqs }) ∧
    (placeState m g u ≠ .free → fits → r.state = .committed → ¬ good →
      w = { rest with
        repairs := void :: rest.repairs, seqs := r.seq :: rest.seqs, voided := rest.voided + 1, bad := rest.bad + 1 }) ∧
    (placeState m g u ≠ .free → fits → r.state = .void → w = { rest with seqs := r.seq :: rest.seqs }) ∧
    (placeState m g u ≠ .free → ¬ fits →
      w = { repairs := cellsAt (g.val * 2048 + u * 8) (List.replicate ((256 - u) * 8) 0), kept := [], seqs := []
            voided := 1, bad := if r.state = .opened then 0 else 1, fill := 256 })) ∧
  (∀ (rd : Vector HeaderReading 64) (hint : Seg),
    let filling (g : Seg) : Prop := (rd[g]).reading = .filling
    let sealed (g : Seg) : Prop := (rd[g]).reading = .sealed
    let free (g : Seg) : Prop := (rd[g]).reading = .free
    let rank (g : Seg) : Nat := if (rd[g]).first = 0 then 4294967296 else (rd[g]).first
    let usable : Prop := free hint ∧ (sealed (hint - 1) ∨ ∀ g, ¬ sealed g)
    (∀ f, filling f → (∀ g, filling g → g ≠ f → rank g < rank f ∨ (rank g = rank f ∧ f < g)) →
      settleFilling rd hint = (f, .found)) ∧
    ((∀ g, ¬ filling g) →
      (usable → settleFilling rd hint = (hint, .openedEmpty)) ∧
      ∀ h, ¬ usable → sealed h →
        (∀ g, sealed g → g ≠ h → (rd[g]).first < (rd[h]).first ∨ ((rd[g]).first = (rd[h]).first ∧ h < g)) →
        (free (h + 1) → settleFilling rd hint = (h + 1, .openedEmpty)) ∧
        (¬ free (h + 1) → settleFilling rd hint = (h, .reopened)))) ∧
  ∀ (rd : Vector HeaderReading 64) (f : Seg) (first : Option Nat),
    let back (i : Nat) : Seg := f - 1 - Fin.ofNat 64 i
    let next (i : Nat) : Option Nat := if i = 0 then first else some (rd[back (i - 1)]).first
    let joins (i : Nat) : Prop := (rd[back i]).reading ≠ .free ∧ ∀ n, next i = some n → (rd[back i]).first < n
    let used := usedCount rd f first
    1 ≤ used ∧ used ≤ 64 ∧ (∀ i, i + 1 < used → joins i) ∧ (used < 64 → ¬ joins (used - 1))

/-- How recovery puts the journal together from those readings (R190 to R193). F opened without a record has fill point 1,
any other the unit after its last place; the head is F less the other used segments; F is FILLING and they are SEALED, each
with the summary of the COMMITTED records kept in it, and every other segment is FREE and empty; the records voided and the
bad checks are counted over all segments. The repairs are the header rewrites, those of the walks, the headers that settle
F, the zeroing of F from the fill point on, and the cleared headers of the stranded segments, in that order; the order over
the segments is the model's choice (log 45). The records kept lie in journal order. The cause is ORDERLY when the last of
them is a POWER_DOWN record and ABRUPT otherwise (R194), and a node's watermark is the node sequence of its CAPTURE record
with the highest number among them (R193). -/
def Obligations.RecoverySettlesTheJournal : Prop :=
  (causeOf [] = 2 ∧ ∀ (l : List Stored) (x : Stored),
    causeOf (l ++ [x]) = if x.source = 2 ∧ x.cls = 12 ∧ x.key.toNat / 256 = 3 then 1 else 2) ∧
  (∀ (kept : List Stored) (n : Fin 8),
    let own (x : Stored) : Prop := x ∈ kept ∧ x.source = 1 ∧ x.node = n.val
    (watermarkOf kept n = none ↔ ∀ x, ¬ own x) ∧
    ∀ q, watermarkOf kept n = some q → ∃ x, own x ∧ x.nodeSeq = q ∧ ∀ y, own y → y.seq ≤ x.seq) ∧
  ∀ (m : Memory) (hint : Seg) (rd : Vector HeaderReading 64), (∀ g : Seg, rd[g] = readHeader m g) →
    let rewrites := (fins 64).flatMap (fun g => (rd[g]).repair)
    let walk (g : Seg) : Walk :=
      if (rd[g]).reading = .free then { repairs := [], kept := [], seqs := [], voided := 0, bad := 0, fill := 1 }
      else walkFrom (m.writeCells rewrites) g 86 1
    let f := (settleFilling rd hint).1
    let how := (settleFilling rd hint).2
    let fill := if how = .openedEmpty then 1 else (walk f).fill
    let used := usedCount rd f (if how = .openedEmpty then none else (walk f).seqs.head?)
    let inUse (g : Seg) : Prop := (g - (f + 1 - Fin.ofNat 64 used)).val < used
    let summary (st : SegState) (g : Seg) : IndexEntry :=
      (walk g).kept.foldl (fun x r => x.add r.seq r.stamp r.cls r.source r.node r.unset) (IndexEntry.empty st)
    let r := recoveryOf m hint
    r.filling = f ∧ r.settle = how ∧ r.fillPoint = fill ∧ r.used = used ∧ r.head = f + 1 - Fin.ofNat 64 used ∧
      r.voided = ((fins 64).map (fun g => (walk g).voided)).sum ∧ r.bad = ((fins 64).map (fun g => (walk g).bad)).sum ∧
      (∀ g : Seg,
        (g = f → r.index[g] = summary .filling g) ∧
        (g ≠ f → inUse g → r.index[g] = summary .sealed g) ∧
        (g ≠ f → ¬ inUse g → r.index[g] = IndexEntry.empty .free)) ∧
      r.kept = (fins 64).flatMap (fun k => if k.val < used then (walk (r.head + k)).kept else []) ∧
      (∀ n, r.top = some n → ∃ g, n ∈ (walk g).seqs) ∧ (∀ n g, n ∈ (walk g).seqs → ∃ k, r.top = some k ∧ n ≤ k) ∧
      r.repairs = rewrites ++ (fins 64).flatMap (fun g => (walk g).repairs)
        ++ ((fins 64).filter (fun g => (rd[g]).reading == .filling && g != f)).flatMap
          (fun g => cellsAt (g.val * 2048) (segHeader .sealed (rd[g]).first))
        ++ (if how = .openedEmpty then cellsAt (f.val * 2048) (segHeader .filling 0)
          else if how = .reopened then cellsAt (f.val * 2048) (segHeader .filling (rd[f]).first) else [])
        ++ cellsAt (f.val * 2048 + fill * 8) (List.replicate ((256 - fill) * 8) 0)
        ++ ((fins 64).filter (fun g => decide (g ≠ f ∧ (rd[g]).reading ≠ .free ∧ ¬ inUse g))).flatMap
          (fun g => cellsAt (g.val * 2048) (segHeader .free 0))

/-- The course of COLD_INIT (R196 steps 3 to 5, R197). Each CLEARING_END zeroes its segment, makes it PREPARED and starts
the clearing of the next; after segment 63's, segment 0 is opened without a record, FILLING with first sequence number 0,
and copy A is written with generation 1. CONTROL_BLOCK_WRITE_END stores copy A and begins copy B with the same generation;
when that is stored the main domain takes its values after cold initialisation, segment 1 is found PREPARED and COLD_START
is requested with the cold reason. That the HP's flags and mask are cleared there, and its transaction, reject reason and
counters stay until RUN, are the model's inferences (logs 21, 24). -/
def Obligations.ColdInitialisationRuns : Prop :=
  ∀ s : State, s.pc.supply = .coldInit →
    let values : ControlCopy :=
      { generation := 1, head := s.js.head, filling := 0, policy := s.js.policy, mark := s.js.mark, hint := s.au.nextSeq.sent,
        captureOn := s.cp.enabled, rate := s.cp.rate, gap := s.cp.gap, window := s.cp.window,
        nodes := s.cp.nodes.map (fun n => { enabled := n.enabled, classes := n.classes }), checkOk := true }
    (∀ g : Seg, s.js.clearing = some g →
      let zeroed := s.mem.zero (g.val * 2048) 2048
      let index := s.js.index.set g (IndexEntry.empty .prepared)
      (g.val < 63 → exec .clearingEnd s = .next
        { s with js := { s.js with clearing := some (g + 1), index := index }, mem := zeroed }) ∧
      (g = 63 → s.js.used = 0 → s.js.mark ≠ 1 → exec .clearingEnd s = .next
        { s with
          js := { s.js with
            clearing := none, filling := 0, used := 1, index := index.set 0 (IndexEntry.empty .filling)
            copyWrite := some { target := .a, values := values } }
          au := { s.au with fillPoint := 1 }
          mem := zeroed.writeCells (cellsAt 0 (segHeader .filling 0)) })) ∧
    ∀ w : CopyWrite, s.js.copyWrite = some w → s.js.filling = 0 →
      (w.target = .a → exec .controlBlockWriteEnd s = .next
        { s with
          copyA := w.values
          js := { s.js with
            copyWrite := some { target := .b, values := values }, lastCopy := .a
            lastGeneration := w.values.generation } }) ∧
      (w.target = .b → (s.js.index[1]).state = .prepared → exec .controlBlockWriteEnd s = .next
        { s with
          copyB := w.values
          js := { s.js with
            copyWrite := none, lastCopy := .b, lastGeneration := w.values.generation, blocked := .clear }
          au := { Au.start with
            nextSeq := .value 1, fillPoint := 1
            systemLane :=
              [{ kind := .coldStart, payload := [1, match s.pc.reason with
                  | .backupLost => 1
                  | .controlLost => 2] }] }
          cp := Cp.start, cu := Cu.start, wu := Wu.start, hp := { s.hp with events := 0, mask := 0 }
          tb := { s.tb with staged := none, adjustment := 0, slot := none } })

end
end

