-- ==== Sys2Proof/Laws/State.lean ====
section
/-! SUPPORT. One lemma per field per update of the state, each true by rfl. -/

namespace Sys2Proof.Machine

variable (s : State)

/-! onPc -/
@[simp] theorem State.onPc_pending (f : Pc → Pc) : (s.onPc f).pending = s.pending := rfl
@[simp] theorem State.onPc_pc (f : Pc → Pc) : (s.onPc f).pc = f s.pc := rfl
@[simp] theorem State.onPc_js (f : Pc → Pc) : (s.onPc f).js = s.js := rfl
@[simp] theorem State.onPc_au (f : Pc → Pc) : (s.onPc f).au = s.au := rfl
@[simp] theorem State.onPc_tb (f : Pc → Pc) : (s.onPc f).tb = s.tb := rfl
@[simp] theorem State.onPc_cu (f : Pc → Pc) : (s.onPc f).cu = s.cu := rfl
@[simp] theorem State.onPc_wu (f : Pc → Pc) : (s.onPc f).wu = s.wu := rfl
@[simp] theorem State.onPc_cp (f : Pc → Pc) : (s.onPc f).cp = s.cp := rfl
@[simp] theorem State.onPc_hp (f : Pc → Pc) : (s.onPc f).hp = s.hp := rfl
@[simp] theorem State.onPc_mem (f : Pc → Pc) : (s.onPc f).mem = s.mem := rfl
@[simp] theorem State.onPc_copyA (f : Pc → Pc) : (s.onPc f).copyA = s.copyA := rfl
@[simp] theorem State.onPc_copyB (f : Pc → Pc) : (s.onPc f).copyB = s.copyB := rfl
@[simp] theorem State.onPc_freeCount (f : Pc → Pc) : (s.onPc f).freeCount = s.freeCount := rfl

/-! onJs -/
@[simp] theorem State.onJs_pending (f : Js → Js) : (s.onJs f).pending = s.pending := rfl
@[simp] theorem State.onJs_pc (f : Js → Js) : (s.onJs f).pc = s.pc := rfl
@[simp] theorem State.onJs_js (f : Js → Js) : (s.onJs f).js = f s.js := rfl
@[simp] theorem State.onJs_au (f : Js → Js) : (s.onJs f).au = s.au := rfl
@[simp] theorem State.onJs_tb (f : Js → Js) : (s.onJs f).tb = s.tb := rfl
@[simp] theorem State.onJs_cu (f : Js → Js) : (s.onJs f).cu = s.cu := rfl
@[simp] theorem State.onJs_wu (f : Js → Js) : (s.onJs f).wu = s.wu := rfl
@[simp] theorem State.onJs_cp (f : Js → Js) : (s.onJs f).cp = s.cp := rfl
@[simp] theorem State.onJs_hp (f : Js → Js) : (s.onJs f).hp = s.hp := rfl
@[simp] theorem State.onJs_mem (f : Js → Js) : (s.onJs f).mem = s.mem := rfl
@[simp] theorem State.onJs_copyA (f : Js → Js) : (s.onJs f).copyA = s.copyA := rfl
@[simp] theorem State.onJs_copyB (f : Js → Js) : (s.onJs f).copyB = s.copyB := rfl
@[simp] theorem State.onJs_freeCount (f : Js → Js) : (s.onJs f).freeCount = s.freeCount := rfl

/-! onAu -/
@[simp] theorem State.onAu_pending (f : Au → Au) : (s.onAu f).pending = s.pending := rfl
@[simp] theorem State.onAu_pc (f : Au → Au) : (s.onAu f).pc = s.pc := rfl
@[simp] theorem State.onAu_js (f : Au → Au) : (s.onAu f).js = s.js := rfl
@[simp] theorem State.onAu_au (f : Au → Au) : (s.onAu f).au = f s.au := rfl
@[simp] theorem State.onAu_tb (f : Au → Au) : (s.onAu f).tb = s.tb := rfl
@[simp] theorem State.onAu_cu (f : Au → Au) : (s.onAu f).cu = s.cu := rfl
@[simp] theorem State.onAu_wu (f : Au → Au) : (s.onAu f).wu = s.wu := rfl
@[simp] theorem State.onAu_cp (f : Au → Au) : (s.onAu f).cp = s.cp := rfl
@[simp] theorem State.onAu_hp (f : Au → Au) : (s.onAu f).hp = s.hp := rfl
@[simp] theorem State.onAu_mem (f : Au → Au) : (s.onAu f).mem = s.mem := rfl
@[simp] theorem State.onAu_copyA (f : Au → Au) : (s.onAu f).copyA = s.copyA := rfl
@[simp] theorem State.onAu_copyB (f : Au → Au) : (s.onAu f).copyB = s.copyB := rfl
@[simp] theorem State.onAu_freeCount (f : Au → Au) : (s.onAu f).freeCount = s.freeCount := rfl

/-! onTb -/
@[simp] theorem State.onTb_pending (f : Tb → Tb) : (s.onTb f).pending = s.pending := rfl
@[simp] theorem State.onTb_pc (f : Tb → Tb) : (s.onTb f).pc = s.pc := rfl
@[simp] theorem State.onTb_js (f : Tb → Tb) : (s.onTb f).js = s.js := rfl
@[simp] theorem State.onTb_au (f : Tb → Tb) : (s.onTb f).au = s.au := rfl
@[simp] theorem State.onTb_tb (f : Tb → Tb) : (s.onTb f).tb = f s.tb := rfl
@[simp] theorem State.onTb_cu (f : Tb → Tb) : (s.onTb f).cu = s.cu := rfl
@[simp] theorem State.onTb_wu (f : Tb → Tb) : (s.onTb f).wu = s.wu := rfl
@[simp] theorem State.onTb_cp (f : Tb → Tb) : (s.onTb f).cp = s.cp := rfl
@[simp] theorem State.onTb_hp (f : Tb → Tb) : (s.onTb f).hp = s.hp := rfl
@[simp] theorem State.onTb_mem (f : Tb → Tb) : (s.onTb f).mem = s.mem := rfl
@[simp] theorem State.onTb_copyA (f : Tb → Tb) : (s.onTb f).copyA = s.copyA := rfl
@[simp] theorem State.onTb_copyB (f : Tb → Tb) : (s.onTb f).copyB = s.copyB := rfl
@[simp] theorem State.onTb_freeCount (f : Tb → Tb) : (s.onTb f).freeCount = s.freeCount := rfl

/-! onCu -/
@[simp] theorem State.onCu_pending (f : Cu → Cu) : (s.onCu f).pending = s.pending := rfl
@[simp] theorem State.onCu_pc (f : Cu → Cu) : (s.onCu f).pc = s.pc := rfl
@[simp] theorem State.onCu_js (f : Cu → Cu) : (s.onCu f).js = s.js := rfl
@[simp] theorem State.onCu_au (f : Cu → Cu) : (s.onCu f).au = s.au := rfl
@[simp] theorem State.onCu_tb (f : Cu → Cu) : (s.onCu f).tb = s.tb := rfl
@[simp] theorem State.onCu_cu (f : Cu → Cu) : (s.onCu f).cu = f s.cu := rfl
@[simp] theorem State.onCu_wu (f : Cu → Cu) : (s.onCu f).wu = s.wu := rfl
@[simp] theorem State.onCu_cp (f : Cu → Cu) : (s.onCu f).cp = s.cp := rfl
@[simp] theorem State.onCu_hp (f : Cu → Cu) : (s.onCu f).hp = s.hp := rfl
@[simp] theorem State.onCu_mem (f : Cu → Cu) : (s.onCu f).mem = s.mem := rfl
@[simp] theorem State.onCu_copyA (f : Cu → Cu) : (s.onCu f).copyA = s.copyA := rfl
@[simp] theorem State.onCu_copyB (f : Cu → Cu) : (s.onCu f).copyB = s.copyB := rfl
@[simp] theorem State.onCu_freeCount (f : Cu → Cu) : (s.onCu f).freeCount = s.freeCount := rfl

/-! onWu -/
@[simp] theorem State.onWu_pending (f : Wu → Wu) : (s.onWu f).pending = s.pending := rfl
@[simp] theorem State.onWu_pc (f : Wu → Wu) : (s.onWu f).pc = s.pc := rfl
@[simp] theorem State.onWu_js (f : Wu → Wu) : (s.onWu f).js = s.js := rfl
@[simp] theorem State.onWu_au (f : Wu → Wu) : (s.onWu f).au = s.au := rfl
@[simp] theorem State.onWu_tb (f : Wu → Wu) : (s.onWu f).tb = s.tb := rfl
@[simp] theorem State.onWu_cu (f : Wu → Wu) : (s.onWu f).cu = s.cu := rfl
@[simp] theorem State.onWu_wu (f : Wu → Wu) : (s.onWu f).wu = f s.wu := rfl
@[simp] theorem State.onWu_cp (f : Wu → Wu) : (s.onWu f).cp = s.cp := rfl
@[simp] theorem State.onWu_hp (f : Wu → Wu) : (s.onWu f).hp = s.hp := rfl
@[simp] theorem State.onWu_mem (f : Wu → Wu) : (s.onWu f).mem = s.mem := rfl
@[simp] theorem State.onWu_copyA (f : Wu → Wu) : (s.onWu f).copyA = s.copyA := rfl
@[simp] theorem State.onWu_copyB (f : Wu → Wu) : (s.onWu f).copyB = s.copyB := rfl
@[simp] theorem State.onWu_freeCount (f : Wu → Wu) : (s.onWu f).freeCount = s.freeCount := rfl

/-! onCp -/
@[simp] theorem State.onCp_pending (f : Cp → Cp) : (s.onCp f).pending = s.pending := rfl
@[simp] theorem State.onCp_pc (f : Cp → Cp) : (s.onCp f).pc = s.pc := rfl
@[simp] theorem State.onCp_js (f : Cp → Cp) : (s.onCp f).js = s.js := rfl
@[simp] theorem State.onCp_au (f : Cp → Cp) : (s.onCp f).au = s.au := rfl
@[simp] theorem State.onCp_tb (f : Cp → Cp) : (s.onCp f).tb = s.tb := rfl
@[simp] theorem State.onCp_cu (f : Cp → Cp) : (s.onCp f).cu = s.cu := rfl
@[simp] theorem State.onCp_wu (f : Cp → Cp) : (s.onCp f).wu = s.wu := rfl
@[simp] theorem State.onCp_cp (f : Cp → Cp) : (s.onCp f).cp = f s.cp := rfl
@[simp] theorem State.onCp_hp (f : Cp → Cp) : (s.onCp f).hp = s.hp := rfl
@[simp] theorem State.onCp_mem (f : Cp → Cp) : (s.onCp f).mem = s.mem := rfl
@[simp] theorem State.onCp_copyA (f : Cp → Cp) : (s.onCp f).copyA = s.copyA := rfl
@[simp] theorem State.onCp_copyB (f : Cp → Cp) : (s.onCp f).copyB = s.copyB := rfl
@[simp] theorem State.onCp_freeCount (f : Cp → Cp) : (s.onCp f).freeCount = s.freeCount := rfl

/-! onHp -/
@[simp] theorem State.onHp_pending (f : Hp → Hp) : (s.onHp f).pending = s.pending := rfl
@[simp] theorem State.onHp_pc (f : Hp → Hp) : (s.onHp f).pc = s.pc := rfl
@[simp] theorem State.onHp_js (f : Hp → Hp) : (s.onHp f).js = s.js := rfl
@[simp] theorem State.onHp_au (f : Hp → Hp) : (s.onHp f).au = s.au := rfl
@[simp] theorem State.onHp_tb (f : Hp → Hp) : (s.onHp f).tb = s.tb := rfl
@[simp] theorem State.onHp_cu (f : Hp → Hp) : (s.onHp f).cu = s.cu := rfl
@[simp] theorem State.onHp_wu (f : Hp → Hp) : (s.onHp f).wu = s.wu := rfl
@[simp] theorem State.onHp_cp (f : Hp → Hp) : (s.onHp f).cp = s.cp := rfl
@[simp] theorem State.onHp_hp (f : Hp → Hp) : (s.onHp f).hp = f s.hp := rfl
@[simp] theorem State.onHp_mem (f : Hp → Hp) : (s.onHp f).mem = s.mem := rfl
@[simp] theorem State.onHp_copyA (f : Hp → Hp) : (s.onHp f).copyA = s.copyA := rfl
@[simp] theorem State.onHp_copyB (f : Hp → Hp) : (s.onHp f).copyB = s.copyB := rfl
@[simp] theorem State.onHp_freeCount (f : Hp → Hp) : (s.onHp f).freeCount = s.freeCount := rfl

/-! onMem -/
@[simp] theorem State.onMem_pending (f : Memory → Memory) : (s.onMem f).pending = s.pending := rfl
@[simp] theorem State.onMem_pc (f : Memory → Memory) : (s.onMem f).pc = s.pc := rfl
@[simp] theorem State.onMem_js (f : Memory → Memory) : (s.onMem f).js = s.js := rfl
@[simp] theorem State.onMem_au (f : Memory → Memory) : (s.onMem f).au = s.au := rfl
@[simp] theorem State.onMem_tb (f : Memory → Memory) : (s.onMem f).tb = s.tb := rfl
@[simp] theorem State.onMem_cu (f : Memory → Memory) : (s.onMem f).cu = s.cu := rfl
@[simp] theorem State.onMem_wu (f : Memory → Memory) : (s.onMem f).wu = s.wu := rfl
@[simp] theorem State.onMem_cp (f : Memory → Memory) : (s.onMem f).cp = s.cp := rfl
@[simp] theorem State.onMem_hp (f : Memory → Memory) : (s.onMem f).hp = s.hp := rfl
@[simp] theorem State.onMem_mem (f : Memory → Memory) : (s.onMem f).mem = f s.mem := rfl
@[simp] theorem State.onMem_copyA (f : Memory → Memory) : (s.onMem f).copyA = s.copyA := rfl
@[simp] theorem State.onMem_copyB (f : Memory → Memory) : (s.onMem f).copyB = s.copyB := rfl
@[simp] theorem State.onMem_freeCount (f : Memory → Memory) : (s.onMem f).freeCount = s.freeCount := rfl

/-! setCopy -/
@[simp] theorem State.setCopy_pending (i : CopyId) (c : ControlCopy) : (s.setCopy i c).pending = s.pending := by cases i <;> rfl
@[simp] theorem State.setCopy_pc (i : CopyId) (c : ControlCopy) : (s.setCopy i c).pc = s.pc := by cases i <;> rfl
@[simp] theorem State.setCopy_js (i : CopyId) (c : ControlCopy) : (s.setCopy i c).js = s.js := by cases i <;> rfl
@[simp] theorem State.setCopy_au (i : CopyId) (c : ControlCopy) : (s.setCopy i c).au = s.au := by cases i <;> rfl
@[simp] theorem State.setCopy_tb (i : CopyId) (c : ControlCopy) : (s.setCopy i c).tb = s.tb := by cases i <;> rfl
@[simp] theorem State.setCopy_cu (i : CopyId) (c : ControlCopy) : (s.setCopy i c).cu = s.cu := by cases i <;> rfl
@[simp] theorem State.setCopy_wu (i : CopyId) (c : ControlCopy) : (s.setCopy i c).wu = s.wu := by cases i <;> rfl
@[simp] theorem State.setCopy_cp (i : CopyId) (c : ControlCopy) : (s.setCopy i c).cp = s.cp := by cases i <;> rfl
@[simp] theorem State.setCopy_hp (i : CopyId) (c : ControlCopy) : (s.setCopy i c).hp = s.hp := by cases i <;> rfl
@[simp] theorem State.setCopy_mem (i : CopyId) (c : ControlCopy) : (s.setCopy i c).mem = s.mem := by cases i <;> rfl
@[simp] theorem State.setCopy_freeCount (i : CopyId) (c : ControlCopy) : (s.setCopy i c).freeCount = s.freeCount := by cases i <;> rfl
@[simp] theorem State.setCopy_copyA (c : ControlCopy) : (s.setCopy .a c).copyA = c := rfl
@[simp] theorem State.setCopy_copyB (c : ControlCopy) : (s.setCopy .b c).copyB = c := rfl

end Sys2Proof.Machine
end

