-- ==== Sys2Proof/Laws/Memory.lean ====
section
/-! SUPPORT. The record memory: reads after writes, and every operation keeps the canonical form. -/

namespace Sys2Proof.Machine

/-- Every address listed in `m` is above `x`. -/
def Memory.above (x : Nat) (m : Memory) : Prop := ∀ c ∈ m, x < c.1

/-- The canonical form of a list with a head: the head's own conditions, the rest above it, and the rest's form. -/
theorem Memory.wf_cons (a : Nat) (b : Byte) (m : Memory) :
    Memory.wf ((a, b) :: m) = true ↔ (b ≠ unlisted ∧ a < memorySize ∧ m.above a ∧ m.wf = true) := by
  induction m generalizing a b with
  | nil => simp [Memory.wf, Memory.above]
  | cons c m ih =>
    obtain ⟨a', b'⟩ := c
    have h' := ih a' b'
    simp only [Memory.wf, Bool.and_eq_true, bne_iff_ne, ne_eq, decide_eq_true_eq, h', Memory.above,
      List.mem_cons, forall_eq_or_imp]
    constructor
    · rintro ⟨⟨⟨h1, h2⟩, h3⟩, h4, h5, h6, h7⟩
      exact ⟨h1, h2, ⟨h3, fun c hc => lt_trans h3 (h6 c hc)⟩, h4, h5, h6, h7⟩
    · rintro ⟨h1, h2, ⟨h3, _⟩, h4, h5, h6, h7⟩
      exact ⟨⟨⟨h1, h2⟩, h3⟩, h4, h5, h6, h7⟩

/-- An address below every listed one reads as unlisted. -/
theorem Memory.read_above {m : Memory} {x y : Nat} (h : m.above x) (hy : y ≤ x) : m.read y = unlisted := by
  induction m with
  | nil => rfl
  | cons c m ih =>
    obtain ⟨a, b⟩ := c
    have ha : x < a := h (a, b) (by simp)
    simp only [Memory.read]
    rw [if_neg (by omega)]
    exact ih (fun c hc => h c (by simp [hc]))

/-- What `put` lists is the new entry or an old one. -/
theorem Memory.mem_put {m : Memory} {y : Nat} {v : Byte} {c : Host.Cell} (h : c ∈ m.put y v) : c = (y, v) ∨ c ∈ m := by
  induction m with
  | nil => unfold Memory.put at h; split at h <;> simp_all
  | cons d m ih =>
    obtain ⟨a, b⟩ := d
    unfold Memory.put at h
    (repeat' split at h) <;> simp only [List.mem_cons] at h ⊢ <;> tauto

/-- What `put` lists lies above `x` when the old list and the address do. -/
theorem Memory.above_put {m : Memory} {x y : Nat} {v : Byte} (h : m.above x) (hy : x < y) : (m.put y v).above x := by
  intro c hc
  rcases Memory.mem_put hc with rfl | hc
  · exact hy
  · exact h c hc

/-- `put` keeps the canonical form. -/
theorem Memory.wf_put {m : Memory} {x : Nat} {v : Byte} (hx : x < memorySize) (h : m.wf = true) :
    (m.put x v).wf = true := by
  induction m with
  | nil => unfold Memory.put; split <;> simp_all [Memory.wf]
  | cons c m ih =>
    obtain ⟨a, b⟩ := c
    obtain ⟨h1, h2, h3, h4⟩ := (Memory.wf_cons a b m).1 h
    unfold Memory.put
    split
    · split
      · exact h
      · refine (Memory.wf_cons x v _).2 ⟨by assumption, hx, ?_, h⟩
        intro c hc
        rcases List.mem_cons.1 hc with rfl | hc
        · assumption
        · exact lt_trans (by assumption) (h3 c hc)
    · split
      · split
        · exact h4
        · exact (Memory.wf_cons x v m).2 ⟨by assumption, hx, by subst_vars; exact h3, h4⟩
      · exact (Memory.wf_cons a b _).2 ⟨h1, h2, Memory.above_put h3 (by omega), ih h4⟩

/-- A write keeps the canonical form. -/
theorem Memory.wf_write {m : Memory} (x : Nat) (v : Byte) (h : m.wf = true) : (m.write x v).wf = true := by
  unfold Memory.write; split
  · exact Memory.wf_put (by assumption) h
  · exact h

/-- Writes in order keep the canonical form. -/
theorem Memory.wf_writeCells {m : Memory} (l : List Host.Cell) (h : m.wf = true) : (m.writeCells l).wf = true := by
  unfold Memory.writeCells
  induction l generalizing m with
  | nil => exact h
  | cons c l ih => exact ih (Memory.wf_write c.1 c.2 h)

/-- Taking entries away keeps the canonical form. -/
theorem Memory.wf_filter {m : Memory} (p : Host.Cell → Bool) (h : m.wf = true) : Memory.wf (m.filter p) = true := by
  induction m with
  | nil => rfl
  | cons c m ih =>
    obtain ⟨a, b⟩ := c
    obtain ⟨h1, h2, h3, h4⟩ := (Memory.wf_cons a b m).1 h
    simp only [List.filter_cons]
    split
    · exact (Memory.wf_cons a b _).2 ⟨h1, h2, fun c hc => h3 c (List.mem_of_mem_filter hc), ih h4⟩
    · exact ih h4

/-- Zeroing keeps the canonical form. -/
theorem Memory.wf_zero {m : Memory} (x n : Nat) (h : m.wf = true) : (m.zero x n).wf = true := Memory.wf_filter _ h

/-- A clearing keeps the canonical form. -/
theorem Memory.wf_cleared {m : Memory} (g : Seg) (n : Nat) (h : m.wf = true) : (m.cleared g n).wf = true :=
  Memory.wf_zero _ _ h

/-- The memory after reset is canonical. -/
theorem reset_mem_wf : State.reset.mem.wf = true := rfl

/-- Reading after `put` in a canonical memory. -/
theorem Memory.read_put {m : Memory} (h : m.wf = true) (x y : Nat) (v : Byte) :
    (m.put x v).read y = if x = y then v else m.read y := by
  induction m with
  | nil =>
    unfold Memory.put
    split
    · simp_all [Memory.read]
    · simp [Memory.read]
  | cons c m ih =>
    obtain ⟨a, b⟩ := c
    obtain ⟨_, _, h3, h4⟩ := (Memory.wf_cons a b m).1 h
    unfold Memory.put
    split
    · rename_i hxa
      split
      · split
        · rename_i hxy
          subst hxy
          simp only [Memory.read]
          rw [if_neg (by omega), Memory.read_above h3 (by omega)]
          exact (by assumption : v = unlisted).symm
        · rfl
      · simp only [Memory.read]
    · split
      · subst_vars
        split
        · split
          · subst_vars; exact Memory.read_above h3 (le_refl _)
          · simp only [Memory.read]; rw [if_neg (by assumption)]
        · simp only [Memory.read]; split <;> rfl
      · simp only [Memory.read, ih h4]
        split
        · rw [if_neg (by omega)]
        · rfl

/-- Reading after a write in a canonical memory: the byte written, and every other byte as before. -/
theorem Memory.read_write {m : Memory} (h : m.wf = true) (x y : Nat) (v : Byte) (hx : x < memorySize) :
    (m.write x v).read y = if x = y then v else m.read y := by
  unfold Memory.write; rw [if_pos hx]; exact Memory.read_put h x y v

/-- A write elsewhere leaves a byte as it was. -/
theorem Memory.read_write_other {m : Memory} (h : m.wf = true) {x y : Nat} (v : Byte) (hne : x ≠ y) :
    (m.write x v).read y = m.read y := by
  unfold Memory.write; split
  · rw [Memory.read_put h, if_neg hne]
  · rfl

/-- Writes elsewhere leave a byte as it was. -/
theorem Memory.read_writeCells_other {m : Memory} (h : m.wf = true) {y : Nat} (l : List Host.Cell)
    (hne : ∀ c ∈ l, c.1 ≠ y) : (m.writeCells l).read y = m.read y := by
  unfold Memory.writeCells
  induction l generalizing m with
  | nil => rfl
  | cons c l ih =>
    rw [List.foldl_cons, ih (Memory.wf_write _ _ h) (fun d hd => hne d (by simp [hd])),
      Memory.read_write_other h _ (hne c (by simp))]

/-- Zeroed bytes read 00h, the others as before. -/
theorem Memory.read_zero {m : Memory} (h : m.wf = true) (x n y : Nat) :
    (m.zero x n).read y = if x ≤ y ∧ y < x + n then unlisted else m.read y := by
  unfold Memory.zero
  induction m with
  | nil => simp [Memory.read]
  | cons c m ih =>
    obtain ⟨a, b⟩ := c
    obtain ⟨_, _, h3, h4⟩ := (Memory.wf_cons a b m).1 h
    have ih' := ih h4
    simp only [List.filter_cons, Bool.or_eq_true, decide_eq_true_eq]
    split
    · simp only [Memory.read, ih']
      split
      · rw [if_neg (by omega)]
      · rfl
    · simp only [Memory.read, ih']
      by_cases hay : a = y
      · subst hay; rw [if_pos (by omega), if_pos (by omega)]
      · rw [if_neg hay]

/-- Bytes laid out from `x` on lie at `x` to `x + length - 1`. -/
theorem mem_cellsAt {x : Nat} {l : List Byte} {c : Host.Cell} (h : c ∈ cellsAt x l) :
    x ≤ c.1 ∧ c.1 < x + l.length := by
  unfold cellsAt at h
  obtain ⟨i, hi, rfl⟩ := List.mem_map.1 h
  have := List.mem_range.1 hi
  exact ⟨by simp, by simp; omega⟩

/-- Writing bytes from `x` on leaves every byte outside them as it was. -/
theorem Memory.read_cellsAt_outside {m : Memory} (h : m.wf = true) (x : Nat) (l : List Byte) (y : Nat)
    (hy : y < x ∨ x + l.length ≤ y) : (m.writeCells (cellsAt x l)).read y = m.read y := by
  apply Memory.read_writeCells_other h
  intro c hc
  have := mem_cellsAt hc
  omega

end Sys2Proof.Machine
end

