-- ==== Sys2Proof/Laws/Frames.lean ====
section
/-! SUPPORT. Frames: for each operation over the state, the parts of the state that it leaves as they were. -/

namespace Sys2Proof.Machine

/-- A fold keeps what each of its steps keeps. -/
theorem foldl_keeps {α β : Type} {p : State → β} (f : State → α → State) (h : ∀ s a, p (f s a) = p s) (l : List α)
    (s : State) : p (l.foldl f s) = p s := by
  induction l generalizing s with
  | nil => rfl
  | cons a l ih => rw [List.foldl_cons, ih, h]

@[simp] theorem latch_frame (e : Event) (s : State) :
    (latch e s).pending = s.pending ∧ (latch e s).pc = s.pc ∧ (latch e s).js = s.js ∧ (latch e s).au = s.au ∧
    (latch e s).tb = s.tb ∧ (latch e s).cu = s.cu ∧ (latch e s).wu = s.wu ∧ (latch e s).cp = s.cp ∧
    (latch e s).mem = s.mem ∧ (latch e s).copyA = s.copyA ∧ (latch e s).copyB = s.copyB ∧
    (latch e s).freeCount = s.freeCount := by
  simp [latch]

@[simp] theorem latchIf_frame (b : Bool) (e : Event) (s : State) :
    (latchIf b e s).pending = s.pending ∧ (latchIf b e s).pc = s.pc ∧ (latchIf b e s).js = s.js ∧
    (latchIf b e s).au = s.au ∧ (latchIf b e s).tb = s.tb ∧ (latchIf b e s).cu = s.cu ∧ (latchIf b e s).wu = s.wu ∧
    (latchIf b e s).cp = s.cp ∧ (latchIf b e s).mem = s.mem ∧ (latchIf b e s).copyA = s.copyA ∧
    (latchIf b e s).copyB = s.copyB ∧ (latchIf b e s).freeCount = s.freeCount := by
  unfold latchIf; split <;> simp

@[simp] theorem post_frame (r : Response) (s : State) :
    (post r s).pending = s.pending ∧ (post r s).pc = s.pc ∧ (post r s).js = s.js ∧ (post r s).au = s.au ∧
    (post r s).tb = s.tb ∧ (post r s).cu = s.cu ∧ (post r s).wu = s.wu ∧ (post r s).cp = s.cp ∧
    (post r s).mem = s.mem ∧ (post r s).copyA = s.copyA ∧ (post r s).copyB = s.copyB ∧
    (post r s).freeCount = s.freeCount := by
  simp [post]

@[simp] theorem answer_frame (e : Entry) (result : Result) (fields : List Byte) (s : State) :
    (answer e result fields s).pending = s.pending ∧ (answer e result fields s).pc = s.pc ∧
    (answer e result fields s).js = s.js ∧ (answer e result fields s).au = s.au ∧
    (answer e result fields s).tb = s.tb ∧ (answer e result fields s).cu = s.cu ∧
    (answer e result fields s).wu = s.wu ∧ (answer e result fields s).cp = s.cp ∧
    (answer e result fields s).mem = s.mem ∧ (answer e result fields s).copyA = s.copyA ∧
    (answer e result fields s).copyB = s.copyB ∧ (answer e result fields s).freeCount = s.freeCount := by
  simp [answer]

@[simp] theorem loseSystem_frame (s : State) :
    (loseSystem s).pending = s.pending ∧ (loseSystem s).pc = s.pc ∧ (loseSystem s).js = s.js ∧
    (loseSystem s).tb = s.tb ∧ (loseSystem s).cu = s.cu ∧ (loseSystem s).wu = s.wu ∧ (loseSystem s).cp = s.cp ∧
    (loseSystem s).mem = s.mem ∧ (loseSystem s).copyA = s.copyA ∧ (loseSystem s).copyB = s.copyB ∧
    (loseSystem s).freeCount = s.freeCount := by
  simp [loseSystem]

@[simp] theorem requestSystem_frame (q : SysRequest) (s : State) :
    (requestSystem q s).pending = s.pending ∧ (requestSystem q s).pc = s.pc ∧ (requestSystem q s).js = s.js ∧
    (requestSystem q s).tb = s.tb ∧ (requestSystem q s).cu = s.cu ∧ (requestSystem q s).wu = s.wu ∧
    (requestSystem q s).cp = s.cp ∧ (requestSystem q s).mem = s.mem ∧ (requestSystem q s).copyA = s.copyA ∧
    (requestSystem q s).copyB = s.copyB ∧ (requestSystem q s).freeCount = s.freeCount := by
  unfold requestSystem; (repeat' split) <;> simp

@[simp] theorem startCopyTo_frame (target : CopyId) (generation : Nat) (s : State) :
    (startCopyTo target generation s).pending = s.pending ∧ (startCopyTo target generation s).pc = s.pc ∧
    (startCopyTo target generation s).au = s.au ∧ (startCopyTo target generation s).tb = s.tb ∧
    (startCopyTo target generation s).cu = s.cu ∧ (startCopyTo target generation s).wu = s.wu ∧
    (startCopyTo target generation s).cp = s.cp ∧ (startCopyTo target generation s).hp = s.hp ∧
    (startCopyTo target generation s).mem = s.mem ∧ (startCopyTo target generation s).copyA = s.copyA ∧
    (startCopyTo target generation s).copyB = s.copyB ∧ (startCopyTo target generation s).freeCount = s.freeCount := by
  simp [startCopyTo]

@[simp] theorem startCopy_frame (s : State) :
    (startCopy s).pending = s.pending ∧ (startCopy s).pc = s.pc ∧ (startCopy s).au = s.au ∧
    (startCopy s).tb = s.tb ∧ (startCopy s).cu = s.cu ∧ (startCopy s).wu = s.wu ∧ (startCopy s).cp = s.cp ∧
    (startCopy s).hp = s.hp ∧ (startCopy s).mem = s.mem ∧ (startCopy s).copyA = s.copyA ∧
    (startCopy s).copyB = s.copyB ∧ (startCopy s).freeCount = s.freeCount := by
  simp [startCopy]

@[simp] theorem requestCopy_frame (s : State) :
    (requestCopy s).pending = s.pending ∧ (requestCopy s).pc = s.pc ∧ (requestCopy s).au = s.au ∧
    (requestCopy s).tb = s.tb ∧ (requestCopy s).cu = s.cu ∧ (requestCopy s).wu = s.wu ∧ (requestCopy s).cp = s.cp ∧
    (requestCopy s).hp = s.hp ∧ (requestCopy s).mem = s.mem ∧ (requestCopy s).copyA = s.copyA ∧
    (requestCopy s).copyB = s.copyB ∧ (requestCopy s).freeCount = s.freeCount := by
  unfold requestCopy; split <;> simp

@[simp] theorem startClearing_frame (g : Seg) (s : State) :
    (startClearing g s).pending = s.pending ∧ (startClearing g s).pc = s.pc ∧ (startClearing g s).au = s.au ∧
    (startClearing g s).tb = s.tb ∧ (startClearing g s).cu = s.cu ∧ (startClearing g s).wu = s.wu ∧
    (startClearing g s).cp = s.cp ∧ (startClearing g s).hp = s.hp ∧ (startClearing g s).mem = s.mem ∧
    (startClearing g s).copyA = s.copyA ∧ (startClearing g s).copyB = s.copyB ∧
    (startClearing g s).freeCount = s.freeCount := by
  simp [startClearing]

@[simp] theorem reclaim_frame (s : State) :
    (reclaim s).pending = s.pending ∧ (reclaim s).pc = s.pc ∧ (reclaim s).au = s.au ∧ (reclaim s).tb = s.tb ∧
    (reclaim s).wu = s.wu ∧ (reclaim s).cp = s.cp ∧ (reclaim s).hp = s.hp ∧ (reclaim s).mem = s.mem ∧
    (reclaim s).copyA = s.copyA ∧ (reclaim s).copyB = s.copyB ∧ (reclaim s).freeCount = s.freeCount := by
  simp [reclaim]

@[simp] theorem setBlocked_frame (b : Blocked) (s : State) :
    (setBlocked b s).pending = s.pending ∧ (setBlocked b s).pc = s.pc ∧ (setBlocked b s).au = s.au ∧
    (setBlocked b s).tb = s.tb ∧ (setBlocked b s).cu = s.cu ∧ (setBlocked b s).wu = s.wu ∧
    (setBlocked b s).cp = s.cp ∧ (setBlocked b s).hp = s.hp ∧ (setBlocked b s).mem = s.mem ∧
    (setBlocked b s).copyA = s.copyA ∧ (setBlocked b s).copyB = s.copyB ∧ (setBlocked b s).freeCount = s.freeCount := by
  simp [setBlocked]

@[simp] theorem prepare_frame (s : State) :
    (prepare s).pending = s.pending ∧ (prepare s).pc = s.pc ∧ (prepare s).au = s.au ∧ (prepare s).tb = s.tb ∧
    (prepare s).wu = s.wu ∧ (prepare s).cp = s.cp ∧ (prepare s).hp = s.hp ∧ (prepare s).mem = s.mem ∧
    (prepare s).copyA = s.copyA ∧ (prepare s).copyB = s.copyB ∧ (prepare s).freeCount = s.freeCount := by
  unfold prepare; (repeat' split) <;> simp

@[simp] theorem takeFloor_frame (floor : Option Nat) (s : State) :
    (takeFloor floor s).pending = s.pending ∧ (takeFloor floor s).pc = s.pc ∧ (takeFloor floor s).au = s.au ∧
    (takeFloor floor s).tb = s.tb ∧ (takeFloor floor s).wu = s.wu ∧ (takeFloor floor s).cp = s.cp ∧
    (takeFloor floor s).hp = s.hp ∧ (takeFloor floor s).mem = s.mem ∧ (takeFloor floor s).copyA = s.copyA ∧
    (takeFloor floor s).copyB = s.copyB ∧ (takeFloor floor s).freeCount = s.freeCount := by
  unfold takeFloor; dsimp only; refine ⟨?_, ?_, ?_, ?_, ?_, ?_, ?_, ?_, ?_, ?_, ?_⟩ <;> (repeat' split) <;> simp

@[simp] theorem openStates_frame (g : Seg) (cells : List Host.Cell) (s : State) :
    (openStates g cells s).pending = s.pending ∧ (openStates g cells s).pc = s.pc ∧
    (openStates g cells s).tb = s.tb ∧ (openStates g cells s).cu = s.cu ∧ (openStates g cells s).wu = s.wu ∧
    (openStates g cells s).cp = s.cp ∧ (openStates g cells s).copyA = s.copyA ∧
    (openStates g cells s).copyB = s.copyB ∧ (openStates g cells s).freeCount = s.freeCount := by
  simp [openStates]

@[simp] theorem openFor_frame (g : Seg) (first : Nat) (s : State) :
    (openFor g first s).pending = s.pending ∧ (openFor g first s).pc = s.pc ∧ (openFor g first s).tb = s.tb ∧
    (openFor g first s).wu = s.wu ∧ (openFor g first s).cp = s.cp ∧ (openFor g first s).copyA = s.copyA ∧
    (openFor g first s).copyB = s.copyB ∧ (openFor g first s).freeCount = s.freeCount := by
  simp [openFor]

@[simp] theorem openFirst_frame (s : State) :
    (openFirst s).pending = s.pending ∧ (openFirst s).pc = s.pc ∧ (openFirst s).tb = s.tb ∧
    (openFirst s).cu = s.cu ∧ (openFirst s).wu = s.wu ∧ (openFirst s).cp = s.cp ∧ (openFirst s).copyA = s.copyA ∧
    (openFirst s).copyB = s.copyB ∧ (openFirst s).freeCount = s.freeCount := by
  simp [openFirst]

@[simp] theorem setRecord_frame (r : Option InProgress) (s : State) :
    (setRecord r s).pending = s.pending ∧ (setRecord r s).pc = s.pc ∧ (setRecord r s).js = s.js ∧
    (setRecord r s).tb = s.tb ∧ (setRecord r s).cu = s.cu ∧ (setRecord r s).wu = s.wu ∧ (setRecord r s).cp = s.cp ∧
    (setRecord r s).hp = s.hp ∧ (setRecord r s).mem = s.mem ∧ (setRecord r s).copyA = s.copyA ∧
    (setRecord r s).copyB = s.copyB ∧ (setRecord r s).freeCount = s.freeCount := by
  simp [setRecord]

@[simp] theorem beginWrite_frame (opened undo : List Host.Cell) (r : InProgress) (s : State) :
    (beginWrite opened undo r s).pending = s.pending ∧ (beginWrite opened undo r s).pc = s.pc ∧
    (beginWrite opened undo r s).js = s.js ∧ (beginWrite opened undo r s).tb = s.tb ∧
    (beginWrite opened undo r s).cu = s.cu ∧ (beginWrite opened undo r s).wu = s.wu ∧
    (beginWrite opened undo r s).cp = s.cp ∧ (beginWrite opened undo r s).hp = s.hp ∧
    (beginWrite opened undo r s).copyA = s.copyA ∧ (beginWrite opened undo r s).copyB = s.copyB ∧
    (beginWrite opened undo r s).freeCount = s.freeCount := by
  unfold beginWrite; split <;> simp

@[simp] theorem appendChecks_frame (r : InProgress) (s : State) :
    (appendChecks r s).pending = s.pending ∧ (appendChecks r s).pc = s.pc ∧ (appendChecks r s).js = s.js ∧
    (appendChecks r s).tb = s.tb ∧ (appendChecks r s).cu = s.cu ∧ (appendChecks r s).wu = s.wu ∧
    (appendChecks r s).cp = s.cp ∧ (appendChecks r s).hp = s.hp ∧ (appendChecks r s).copyA = s.copyA ∧
    (appendChecks r s).copyB = s.copyB ∧ (appendChecks r s).freeCount = s.freeCount := by
  unfold appendChecks; (repeat' split) <;> simp

@[simp] theorem openAndWrite_frame (r : InProgress) (s : State) :
    (openAndWrite r s).pending = s.pending ∧ (openAndWrite r s).pc = s.pc ∧ (openAndWrite r s).tb = s.tb ∧
    (openAndWrite r s).wu = s.wu ∧ (openAndWrite r s).cp = s.cp ∧ (openAndWrite r s).copyA = s.copyA ∧
    (openAndWrite r s).copyB = s.copyB ∧ (openAndWrite r s).freeCount = s.freeCount := by
  unfold openAndWrite; split <;> simp

@[simp] theorem endAuHoldup_frame (s : State) :
    (endAuHoldup s).pending = s.pending ∧ (endAuHoldup s).js = s.js ∧ (endAuHoldup s).tb = s.tb ∧
    (endAuHoldup s).cu = s.cu ∧ (endAuHoldup s).wu = s.wu ∧ (endAuHoldup s).cp = s.cp ∧ (endAuHoldup s).hp = s.hp ∧
    (endAuHoldup s).mem = s.mem ∧ (endAuHoldup s).copyA = s.copyA ∧ (endAuHoldup s).copyB = s.copyB ∧
    (endAuHoldup s).freeCount = s.freeCount := by
  simp [endAuHoldup]

@[simp] theorem closeAu_frame (s : State) :
    (closeAu s).pending = s.pending ∧ (closeAu s).js = s.js ∧ (closeAu s).tb = s.tb ∧ (closeAu s).cu = s.cu ∧
    (closeAu s).wu = s.wu ∧ (closeAu s).cp = s.cp ∧ (closeAu s).hp = s.hp ∧ (closeAu s).copyA = s.copyA ∧
    (closeAu s).copyB = s.copyB ∧ (closeAu s).freeCount = s.freeCount := by
  unfold closeAu; dsimp only; refine ⟨?_, ?_, ?_, ?_, ?_, ?_, ?_, ?_, ?_, ?_⟩ <;> (repeat' split) <;> simp

@[simp] theorem enterHoldup_frame (s : State) :
    (enterHoldup s).pending = s.pending ∧ (enterHoldup s).copyA = s.copyA ∧ (enterHoldup s).copyB = s.copyB ∧
    (enterHoldup s).freeCount = s.freeCount := by
  unfold enterHoldup; dsimp only; refine ⟨?_, ?_, ?_, ?_⟩ <;> (repeat' split) <;> simp

@[simp] theorem enterRun_frame (s : State) :
    (enterRun s).pending = s.pending ∧ (enterRun s).copyA = s.copyA ∧ (enterRun s).copyB = s.copyB ∧
    (enterRun s).freeCount = s.freeCount := by
  unfold enterRun; dsimp only; refine ⟨?_, ?_, ?_, ?_⟩ <;> (repeat' split) <;> simp

@[simp] theorem finishFormat_frame (s : State) :
    (finishFormat s).pending = s.pending ∧ (finishFormat s).pc = s.pc ∧ (finishFormat s).au = s.au ∧
    (finishFormat s).tb = s.tb ∧ (finishFormat s).cu = s.cu ∧ (finishFormat s).wu = s.wu ∧
    (finishFormat s).cp = s.cp ∧ (finishFormat s).mem = s.mem ∧ (finishFormat s).copyA = s.copyA ∧
    (finishFormat s).copyB = s.copyB ∧ (finishFormat s).freeCount = s.freeCount := by
  unfold finishFormat; (repeat' split) <;> simp

@[simp] theorem formattedEnded_frame (s : State) :
    (formattedEnded s).pending = s.pending ∧ (formattedEnded s).pc = s.pc ∧ (formattedEnded s).au = s.au ∧
    (formattedEnded s).tb = s.tb ∧ (formattedEnded s).cu = s.cu ∧ (formattedEnded s).wu = s.wu ∧
    (formattedEnded s).cp = s.cp ∧ (formattedEnded s).mem = s.mem ∧ (formattedEnded s).copyA = s.copyA ∧
    (formattedEnded s).copyB = s.copyB ∧ (formattedEnded s).freeCount = s.freeCount := by
  simp [formattedEnded]

@[simp] theorem afterAppend_frame (o : Origin) (s : State) :
    (afterAppend o s).pending = s.pending ∧ (afterAppend o s).copyA = s.copyA ∧ (afterAppend o s).copyB = s.copyB ∧
    (afterAppend o s).freeCount = s.freeCount := by
  unfold afterAppend; (repeat' split) <;> simp

@[simp] theorem stopsAfterAppend_frame (s : State) :
    (stopsAfterAppend s).pending = s.pending ∧ (stopsAfterAppend s).tb = s.tb ∧ (stopsAfterAppend s).cu = s.cu ∧
    (stopsAfterAppend s).wu = s.wu ∧ (stopsAfterAppend s).cp = s.cp ∧ (stopsAfterAppend s).hp = s.hp ∧
    (stopsAfterAppend s).copyA = s.copyA ∧ (stopsAfterAppend s).copyB = s.copyB ∧
    (stopsAfterAppend s).freeCount = s.freeCount := by
  unfold stopsAfterAppend; (repeat' split) <;> simp

@[simp] theorem endAppend_frame (o : Origin) (s : State) :
    (endAppend o s).pending = s.pending ∧ (endAppend o s).copyA = s.copyA ∧ (endAppend o s).copyB = s.copyB ∧
    (endAppend o s).freeCount = s.freeCount := by
  unfold endAppend; split <;> simp

@[simp] theorem freePlace_frame (s : State) :
    (freePlace s).pending = s.pending ∧ (freePlace s).pc = s.pc ∧ (freePlace s).js = s.js ∧
    (freePlace s).tb = s.tb ∧ (freePlace s).cu = s.cu ∧ (freePlace s).wu = s.wu ∧ (freePlace s).cp = s.cp ∧
    (freePlace s).hp = s.hp ∧ (freePlace s).mem = s.mem ∧ (freePlace s).copyA = s.copyA ∧
    (freePlace s).copyB = s.copyB ∧ (freePlace s).freeCount = s.freeCount := by
  simp [freePlace]

@[simp] theorem refuse_frame (code : Result) (r : InProgress) (s : State) :
    (refuse code r s).pending = s.pending ∧ (refuse code r s).copyA = s.copyA ∧ (refuse code r s).copyB = s.copyB ∧
    (refuse code r s).freeCount = s.freeCount := by
  unfold refuse; split <;> simp

@[simp] theorem settleRefusal_frame (s : State) :
    (settleRefusal s).pending = s.pending ∧ (settleRefusal s).copyA = s.copyA ∧ (settleRefusal s).copyB = s.copyB ∧
    (settleRefusal s).freeCount = s.freeCount := by
  unfold settleRefusal; (repeat' split) <;> simp

@[simp] theorem commit_frame (r : InProgress) (s : State) :
    (commit r s).pending = s.pending ∧ (commit r s).pc = s.pc ∧ (commit r s).tb = s.tb ∧
    (commit r s).copyA = s.copyA ∧ (commit r s).copyB = s.copyB ∧ (commit r s).freeCount = s.freeCount := by
  unfold commit; split <;> simp

@[simp] theorem announceSet_frame (t : Tb) (s : State) :
    (announceSet t s).pending = s.pending ∧ (announceSet t s).pc = s.pc ∧ (announceSet t s).js = s.js ∧
    (announceSet t s).tb = s.tb ∧ (announceSet t s).cu = s.cu ∧ (announceSet t s).wu = s.wu ∧
    (announceSet t s).cp = s.cp ∧ (announceSet t s).mem = s.mem ∧ (announceSet t s).copyA = s.copyA ∧
    (announceSet t s).copyB = s.copyB ∧ (announceSet t s).freeCount = s.freeCount := by
  unfold announceSet; split <;> simp

@[simp] theorem boundaryTick_frame (s : State) :
    (boundaryTick s).pending = s.pending ∧ (boundaryTick s).pc = s.pc ∧ (boundaryTick s).js = s.js ∧
    (boundaryTick s).cu = s.cu ∧ (boundaryTick s).cp = s.cp ∧ (boundaryTick s).mem = s.mem ∧
    (boundaryTick s).copyA = s.copyA ∧ (boundaryTick s).copyB = s.copyB ∧ (boundaryTick s).freeCount = s.freeCount := by
  unfold boundaryTick; dsimp only; refine ⟨?_, ?_, ?_, ?_, ?_, ?_, ?_, ?_, ?_⟩ <;> (repeat' split) <;> simp

@[simp] theorem beatEvent_frame (s : State) :
    (beatEvent s).pending = s.pending ∧ (beatEvent s).pc = s.pc ∧ (beatEvent s).js = s.js ∧
    (beatEvent s).au = s.au ∧ (beatEvent s).tb = s.tb ∧ (beatEvent s).wu = s.wu ∧ (beatEvent s).hp = s.hp ∧
    (beatEvent s).mem = s.mem ∧ (beatEvent s).copyA = s.copyA ∧ (beatEvent s).copyB = s.copyB ∧
    (beatEvent s).freeCount = s.freeCount := by
  simp [beatEvent]

@[simp] theorem countBeat_frame (s : State) :
    (countBeat s).pending = s.pending ∧ (countBeat s).pc = s.pc ∧ (countBeat s).js = s.js ∧
    (countBeat s).au = s.au ∧ (countBeat s).wu = s.wu ∧ (countBeat s).hp = s.hp ∧ (countBeat s).mem = s.mem ∧
    (countBeat s).copyA = s.copyA ∧ (countBeat s).copyB = s.copyB ∧ (countBeat s).freeCount = s.freeCount := by
  unfold countBeat; dsimp only; refine ⟨?_, ?_, ?_, ?_, ?_, ?_, ?_, ?_, ?_, ?_⟩ <;> (repeat' split) <;> simp

@[simp] theorem advanceTime_frame (s : State) :
    (advanceTime s).pending = s.pending ∧ (advanceTime s).pc = s.pc ∧ (advanceTime s).js = s.js ∧
    (advanceTime s).cu = s.cu ∧ (advanceTime s).cp = s.cp ∧ (advanceTime s).mem = s.mem ∧
    (advanceTime s).copyA = s.copyA ∧ (advanceTime s).copyB = s.copyB ∧ (advanceTime s).freeCount = s.freeCount := by
  unfold advanceTime; split <;> simp

@[simp] theorem oscillatorTick_frame (s : State) :
    (oscillatorTick s).pending = s.pending ∧ (oscillatorTick s).pc = s.pc ∧ (oscillatorTick s).js = s.js ∧
    (oscillatorTick s).mem = s.mem ∧ (oscillatorTick s).copyA = s.copyA ∧ (oscillatorTick s).copyB = s.copyB ∧
    (oscillatorTick s).freeCount = s.freeCount := by
  unfold oscillatorTick; split <;> simp

@[simp] theorem answerTb_frame (e : Entry) (r : Result) (fields : List Byte) (s : State) :
    (answerTb e r fields s).pending = s.pending ∧ (answerTb e r fields s).pc = s.pc ∧
    (answerTb e r fields s).js = s.js ∧ (answerTb e r fields s).au = s.au ∧ (answerTb e r fields s).cu = s.cu ∧
    (answerTb e r fields s).wu = s.wu ∧ (answerTb e r fields s).cp = s.cp ∧ (answerTb e r fields s).mem = s.mem ∧
    (answerTb e r fields s).copyA = s.copyA ∧ (answerTb e r fields s).copyB = s.copyB ∧
    (answerTb e r fields s).freeCount = s.freeCount := by
  simp [answerTb]

@[simp] theorem readTime_frame (e : Entry) (s : State) :
    (readTime e s).pending = s.pending ∧ (readTime e s).pc = s.pc ∧ (readTime e s).js = s.js ∧
    (readTime e s).au = s.au ∧ (readTime e s).cu = s.cu ∧ (readTime e s).wu = s.wu ∧ (readTime e s).cp = s.cp ∧
    (readTime e s).mem = s.mem ∧ (readTime e s).copyA = s.copyA ∧ (readTime e s).copyB = s.copyB ∧
    (readTime e s).freeCount = s.freeCount := by
  unfold readTime; split <;> simp

@[simp] theorem setTime_frame (e : Entry) (s : State) :
    (setTime e s).pending = s.pending ∧ (setTime e s).pc = s.pc ∧ (setTime e s).js = s.js ∧
    (setTime e s).au = s.au ∧ (setTime e s).cu = s.cu ∧ (setTime e s).wu = s.wu ∧ (setTime e s).cp = s.cp ∧
    (setTime e s).mem = s.mem ∧ (setTime e s).copyA = s.copyA ∧ (setTime e s).copyB = s.copyB ∧
    (setTime e s).freeCount = s.freeCount := by
  unfold setTime; split <;> simp

@[simp] theorem adjustTime_frame (e : Entry) (s : State) :
    (adjustTime e s).pending = s.pending ∧ (adjustTime e s).pc = s.pc ∧ (adjustTime e s).js = s.js ∧
    (adjustTime e s).au = s.au ∧ (adjustTime e s).cu = s.cu ∧ (adjustTime e s).wu = s.wu ∧
    (adjustTime e s).cp = s.cp ∧ (adjustTime e s).mem = s.mem ∧ (adjustTime e s).copyA = s.copyA ∧
    (adjustTime e s).copyB = s.copyB ∧ (adjustTime e s).freeCount = s.freeCount := by
  unfold adjustTime; dsimp only; refine ⟨?_, ?_, ?_, ?_, ?_, ?_, ?_, ?_, ?_, ?_, ?_⟩ <;> (repeat' split) <;> simp

@[simp] theorem watchCommit_frame (c : Notice) (s : State) :
    (watchCommit c s).pending = s.pending ∧ (watchCommit c s).pc = s.pc ∧ (watchCommit c s).js = s.js ∧
    (watchCommit c s).au = s.au ∧ (watchCommit c s).tb = s.tb ∧ (watchCommit c s).cu = s.cu ∧
    (watchCommit c s).cp = s.cp ∧ (watchCommit c s).mem = s.mem ∧ (watchCommit c s).copyA = s.copyA ∧
    (watchCommit c s).copyB = s.copyB ∧ (watchCommit c s).freeCount = s.freeCount := by
  simp [watchCommit]

@[simp] theorem foldl_requestSystem_frame (l : List SysRequest) (s : State) :
    (List.foldl (fun s q => requestSystem q s) s l).pending = s.pending ∧
      (List.foldl (fun s q => requestSystem q s) s l).pc = s.pc ∧
      (List.foldl (fun s q => requestSystem q s) s l).js = s.js ∧
      (List.foldl (fun s q => requestSystem q s) s l).tb = s.tb ∧
      (List.foldl (fun s q => requestSystem q s) s l).cu = s.cu ∧
      (List.foldl (fun s q => requestSystem q s) s l).wu = s.wu ∧
      (List.foldl (fun s q => requestSystem q s) s l).cp = s.cp ∧
      (List.foldl (fun s q => requestSystem q s) s l).mem = s.mem ∧
      (List.foldl (fun s q => requestSystem q s) s l).copyA = s.copyA ∧
      (List.foldl (fun s q => requestSystem q s) s l).copyB = s.copyB ∧
      (List.foldl (fun s q => requestSystem q s) s l).freeCount = s.freeCount :=
  ⟨foldl_keeps (p := State.pending) _ (by simp) _ _, foldl_keeps (p := State.pc) _ (by simp) _ _, foldl_keeps (p := State.js) _ (by simp) _ _, foldl_keeps (p := State.tb) _ (by simp) _ _, foldl_keeps (p := State.cu) _ (by simp) _ _, foldl_keeps (p := State.wu) _ (by simp) _ _, foldl_keeps (p := State.cp) _ (by simp) _ _, foldl_keeps (p := State.mem) _ (by simp) _ _, foldl_keeps (p := State.copyA) _ (by simp) _ _, foldl_keeps (p := State.copyB) _ (by simp) _ _, foldl_keeps (p := State.freeCount) _ (by simp) _ _⟩

@[simp] theorem watchBoundary_frame (s : State) :
    (watchBoundary s).pending = s.pending ∧ (watchBoundary s).pc = s.pc ∧ (watchBoundary s).js = s.js ∧
    (watchBoundary s).tb = s.tb ∧ (watchBoundary s).cu = s.cu ∧ (watchBoundary s).cp = s.cp ∧
    (watchBoundary s).mem = s.mem ∧ (watchBoundary s).copyA = s.copyA ∧ (watchBoundary s).copyB = s.copyB ∧
    (watchBoundary s).freeCount = s.freeCount := by
  simp [watchBoundary]

@[simp] theorem answerWu_frame (e : Entry) (r : Result) (fields : List Byte) (s : State) :
    (answerWu e r fields s).pending = s.pending ∧ (answerWu e r fields s).pc = s.pc ∧
    (answerWu e r fields s).js = s.js ∧ (answerWu e r fields s).au = s.au ∧ (answerWu e r fields s).tb = s.tb ∧
    (answerWu e r fields s).cu = s.cu ∧ (answerWu e r fields s).cp = s.cp ∧ (answerWu e r fields s).mem = s.mem ∧
    (answerWu e r fields s).copyA = s.copyA ∧ (answerWu e r fields s).copyB = s.copyB ∧
    (answerWu e r fields s).freeCount = s.freeCount := by
  simp [answerWu]

@[simp] theorem watchSet_frame (e : Entry) (s : State) :
    (watchSet e s).pending = s.pending ∧ (watchSet e s).pc = s.pc ∧ (watchSet e s).js = s.js ∧
    (watchSet e s).au = s.au ∧ (watchSet e s).tb = s.tb ∧ (watchSet e s).cu = s.cu ∧ (watchSet e s).cp = s.cp ∧
    (watchSet e s).mem = s.mem ∧ (watchSet e s).copyA = s.copyA ∧ (watchSet e s).copyB = s.copyB ∧
    (watchSet e s).freeCount = s.freeCount := by
  unfold watchSet; (repeat' split) <;> simp

@[simp] theorem watchRead_frame (e : Entry) (s : State) :
    (watchRead e s).pending = s.pending ∧ (watchRead e s).pc = s.pc ∧ (watchRead e s).js = s.js ∧
    (watchRead e s).au = s.au ∧ (watchRead e s).tb = s.tb ∧ (watchRead e s).cu = s.cu ∧ (watchRead e s).cp = s.cp ∧
    (watchRead e s).mem = s.mem ∧ (watchRead e s).copyA = s.copyA ∧ (watchRead e s).copyB = s.copyB ∧
    (watchRead e s).freeCount = s.freeCount := by
  unfold watchRead; (repeat' split) <;> simp

@[simp] theorem watchOff_frame (e : Entry) (s : State) :
    (watchOff e s).pending = s.pending ∧ (watchOff e s).pc = s.pc ∧ (watchOff e s).js = s.js ∧
    (watchOff e s).au = s.au ∧ (watchOff e s).tb = s.tb ∧ (watchOff e s).cu = s.cu ∧ (watchOff e s).cp = s.cp ∧
    (watchOff e s).mem = s.mem ∧ (watchOff e s).copyA = s.copyA ∧ (watchOff e s).copyB = s.copyB ∧
    (watchOff e s).freeCount = s.freeCount := by
  unfold watchOff; (repeat' split) <;> simp

@[simp] theorem setJsSlot_frame (sl : Option JsSlot) (s : State) :
    (setJsSlot sl s).pending = s.pending ∧ (setJsSlot sl s).pc = s.pc ∧ (setJsSlot sl s).au = s.au ∧
    (setJsSlot sl s).tb = s.tb ∧ (setJsSlot sl s).cu = s.cu ∧ (setJsSlot sl s).wu = s.wu ∧
    (setJsSlot sl s).cp = s.cp ∧ (setJsSlot sl s).hp = s.hp ∧ (setJsSlot sl s).mem = s.mem ∧
    (setJsSlot sl s).copyA = s.copyA ∧ (setJsSlot sl s).copyB = s.copyB ∧ (setJsSlot sl s).freeCount = s.freeCount := by
  simp [setJsSlot]

@[simp] theorem answerJs_frame (e : Entry) (r : Result) (fields : List Byte) (s : State) :
    (answerJs e r fields s).pending = s.pending ∧ (answerJs e r fields s).pc = s.pc ∧
    (answerJs e r fields s).au = s.au ∧ (answerJs e r fields s).tb = s.tb ∧ (answerJs e r fields s).cu = s.cu ∧
    (answerJs e r fields s).wu = s.wu ∧ (answerJs e r fields s).cp = s.cp ∧ (answerJs e r fields s).mem = s.mem ∧
    (answerJs e r fields s).copyA = s.copyA ∧ (answerJs e r fields s).copyB = s.copyB ∧
    (answerJs e r fields s).freeCount = s.freeCount := by
  simp [answerJs]

@[simp] theorem askAuToStop_frame (s : State) :
    (askAuToStop s).pending = s.pending ∧ (askAuToStop s).pc = s.pc ∧ (askAuToStop s).tb = s.tb ∧
    (askAuToStop s).cu = s.cu ∧ (askAuToStop s).wu = s.wu ∧ (askAuToStop s).cp = s.cp ∧ (askAuToStop s).hp = s.hp ∧
    (askAuToStop s).mem = s.mem ∧ (askAuToStop s).copyA = s.copyA ∧ (askAuToStop s).copyB = s.copyB ∧
    (askAuToStop s).freeCount = s.freeCount := by
  unfold askAuToStop; split <;> simp

@[simp] theorem format_frame (e : Entry) (s : State) :
    (format e s).pending = s.pending ∧ (format e s).pc = s.pc ∧ (format e s).tb = s.tb ∧ (format e s).cu = s.cu ∧
    (format e s).wu = s.wu ∧ (format e s).cp = s.cp ∧ (format e s).mem = s.mem ∧ (format e s).copyA = s.copyA ∧
    (format e s).copyB = s.copyB ∧ (format e s).freeCount = s.freeCount := by
  unfold format; split <;> simp

@[simp] theorem setPolicy_frame (e : Entry) (s : State) :
    (setPolicy e s).pending = s.pending ∧ (setPolicy e s).pc = s.pc ∧ (setPolicy e s).au = s.au ∧
    (setPolicy e s).tb = s.tb ∧ (setPolicy e s).wu = s.wu ∧ (setPolicy e s).cp = s.cp ∧
    (setPolicy e s).mem = s.mem ∧ (setPolicy e s).copyA = s.copyA ∧ (setPolicy e s).copyB = s.copyB ∧
    (setPolicy e s).freeCount = s.freeCount := by
  unfold setPolicy; dsimp only; refine ⟨?_, ?_, ?_, ?_, ?_, ?_, ?_, ?_, ?_, ?_⟩ <;> (repeat' split) <;> simp

@[simp] theorem journalStatus_frame (e : Entry) (s : State) :
    (journalStatus e s).pending = s.pending ∧ (journalStatus e s).pc = s.pc ∧ (journalStatus e s).au = s.au ∧
    (journalStatus e s).tb = s.tb ∧ (journalStatus e s).cu = s.cu ∧ (journalStatus e s).wu = s.wu ∧
    (journalStatus e s).cp = s.cp ∧ (journalStatus e s).mem = s.mem ∧ (journalStatus e s).copyA = s.copyA ∧
    (journalStatus e s).copyB = s.copyB ∧ (journalStatus e s).freeCount = s.freeCount := by
  unfold journalStatus; split <;> simp

@[simp] theorem segmentInfo_frame (e : Entry) (s : State) :
    (segmentInfo e s).pending = s.pending ∧ (segmentInfo e s).pc = s.pc ∧ (segmentInfo e s).au = s.au ∧
    (segmentInfo e s).tb = s.tb ∧ (segmentInfo e s).cu = s.cu ∧ (segmentInfo e s).wu = s.wu ∧
    (segmentInfo e s).cp = s.cp ∧ (segmentInfo e s).mem = s.mem ∧ (segmentInfo e s).copyA = s.copyA ∧
    (segmentInfo e s).copyB = s.copyB ∧ (segmentInfo e s).freeCount = s.freeCount := by
  unfold segmentInfo; (repeat' split) <;> simp

@[simp] theorem closeScanning_frame (s : State) :
    (closeScanning s).pending = s.pending ∧ (closeScanning s).pc = s.pc ∧ (closeScanning s).js = s.js ∧
    (closeScanning s).au = s.au ∧ (closeScanning s).tb = s.tb ∧ (closeScanning s).wu = s.wu ∧
    (closeScanning s).cp = s.cp ∧ (closeScanning s).mem = s.mem ∧ (closeScanning s).copyA = s.copyA ∧
    (closeScanning s).copyB = s.copyB ∧ (closeScanning s).freeCount = s.freeCount := by
  unfold closeScanning; split <;> simp

@[simp] theorem answerParked_frame (r : Result) (c : Fin 4) (s : State) :
    (answerParked r c s).pending = s.pending ∧ (answerParked r c s).pc = s.pc ∧ (answerParked r c s).js = s.js ∧
    (answerParked r c s).au = s.au ∧ (answerParked r c s).tb = s.tb ∧ (answerParked r c s).cu = s.cu ∧
    (answerParked r c s).wu = s.wu ∧ (answerParked r c s).cp = s.cp ∧ (answerParked r c s).mem = s.mem ∧
    (answerParked r c s).copyA = s.copyA ∧ (answerParked r c s).copyB = s.copyB ∧
    (answerParked r c s).freeCount = s.freeCount := by
  unfold answerParked; split <;> simp

@[simp] theorem foldl_answerParked_frame (l : List (Fin 4)) (s : State) :
    (List.foldl (fun s c => answerParked .closed c s) s l).pending = s.pending ∧
      (List.foldl (fun s c => answerParked .closed c s) s l).pc = s.pc ∧
      (List.foldl (fun s c => answerParked .closed c s) s l).js = s.js ∧
      (List.foldl (fun s c => answerParked .closed c s) s l).au = s.au ∧
      (List.foldl (fun s c => answerParked .closed c s) s l).tb = s.tb ∧
      (List.foldl (fun s c => answerParked .closed c s) s l).cu = s.cu ∧
      (List.foldl (fun s c => answerParked .closed c s) s l).wu = s.wu ∧
      (List.foldl (fun s c => answerParked .closed c s) s l).cp = s.cp ∧
      (List.foldl (fun s c => answerParked .closed c s) s l).mem = s.mem ∧
      (List.foldl (fun s c => answerParked .closed c s) s l).copyA = s.copyA ∧
      (List.foldl (fun s c => answerParked .closed c s) s l).copyB = s.copyB ∧
      (List.foldl (fun s c => answerParked .closed c s) s l).freeCount = s.freeCount :=
  ⟨foldl_keeps (p := State.pending) _ (by simp) _ _, foldl_keeps (p := State.pc) _ (by simp) _ _, foldl_keeps (p := State.js) _ (by simp) _ _, foldl_keeps (p := State.au) _ (by simp) _ _, foldl_keeps (p := State.tb) _ (by simp) _ _, foldl_keeps (p := State.cu) _ (by simp) _ _, foldl_keeps (p := State.wu) _ (by simp) _ _, foldl_keeps (p := State.cp) _ (by simp) _ _, foldl_keeps (p := State.mem) _ (by simp) _ _, foldl_keeps (p := State.copyA) _ (by simp) _ _, foldl_keeps (p := State.copyB) _ (by simp) _ _, foldl_keeps (p := State.freeCount) _ (by simp) _ _⟩

@[simp] theorem closeCursors_frame (s : State) :
    (closeCursors s).pending = s.pending ∧ (closeCursors s).pc = s.pc ∧ (closeCursors s).au = s.au ∧
    (closeCursors s).tb = s.tb ∧ (closeCursors s).wu = s.wu ∧ (closeCursors s).cp = s.cp ∧
    (closeCursors s).mem = s.mem ∧ (closeCursors s).copyA = s.copyA ∧ (closeCursors s).copyB = s.copyB ∧
    (closeCursors s).freeCount = s.freeCount := by
  simp [closeCursors]

@[simp] theorem abandonClearing_frame (zeroed : Nat) (s : State) :
    (abandonClearing zeroed s).pending = s.pending ∧ (abandonClearing zeroed s).pc = s.pc ∧
    (abandonClearing zeroed s).au = s.au ∧ (abandonClearing zeroed s).tb = s.tb ∧
    (abandonClearing zeroed s).cu = s.cu ∧ (abandonClearing zeroed s).wu = s.wu ∧
    (abandonClearing zeroed s).cp = s.cp ∧ (abandonClearing zeroed s).hp = s.hp ∧
    (abandonClearing zeroed s).copyA = s.copyA ∧ (abandonClearing zeroed s).copyB = s.copyB ∧
    (abandonClearing zeroed s).freeCount = s.freeCount := by
  unfold abandonClearing; split <;> simp

@[simp] theorem clearAll_frame (s : State) :
    (clearAll s).pending = s.pending ∧ (clearAll s).pc = s.pc ∧ (clearAll s).au = s.au ∧ (clearAll s).tb = s.tb ∧
    (clearAll s).cu = s.cu ∧ (clearAll s).wu = s.wu ∧ (clearAll s).cp = s.cp ∧ (clearAll s).hp = s.hp ∧
    (clearAll s).mem = s.mem ∧ (clearAll s).copyA = s.copyA ∧ (clearAll s).copyB = s.copyB ∧
    (clearAll s).freeCount = s.freeCount := by
  simp [clearAll]

@[simp] theorem placeFormatted_frame (q : SysRequest) (s : State) :
    (placeFormatted q s).pending = s.pending ∧ (placeFormatted q s).pc = s.pc ∧ (placeFormatted q s).js = s.js ∧
    (placeFormatted q s).tb = s.tb ∧ (placeFormatted q s).cu = s.cu ∧ (placeFormatted q s).wu = s.wu ∧
    (placeFormatted q s).cp = s.cp ∧ (placeFormatted q s).mem = s.mem ∧ (placeFormatted q s).copyA = s.copyA ∧
    (placeFormatted q s).copyB = s.copyB ∧ (placeFormatted q s).freeCount = s.freeCount := by
  unfold placeFormatted; dsimp only; refine ⟨?_, ?_, ?_, ?_, ?_, ?_, ?_, ?_, ?_, ?_, ?_⟩ <;> (repeat' split) <;> simp

/-- Steps 4 to 9 of FORMAT touch neither of these. -/
@[simp] theorem thirdPhase_frame (e : Entry) (n : Nat) (s : State) :
    (thirdPhase e n s).pending = s.pending ∧ (thirdPhase e n s).pc = s.pc ∧ (thirdPhase e n s).tb = s.tb ∧
    (thirdPhase e n s).wu = s.wu ∧ (thirdPhase e n s).copyA = s.copyA ∧ (thirdPhase e n s).copyB = s.copyB ∧
    (thirdPhase e n s).freeCount = s.freeCount := by
  rcases n with _ | _ | _ | _ | _ | _ | n <;> simp [thirdPhase, thirdPhaseSteps]

@[simp] theorem formatReady_frame (e : Entry) (discarded : Nat) (w : CopyWait) (s : State) :
    (formatReady e discarded w s).pending = s.pending ∧ (formatReady e discarded w s).pc = s.pc ∧
    (formatReady e discarded w s).tb = s.tb ∧ (formatReady e discarded w s).wu = s.wu ∧
    (formatReady e discarded w s).cp = s.cp ∧ (formatReady e discarded w s).mem = s.mem ∧
    (formatReady e discarded w s).copyA = s.copyA ∧ (formatReady e discarded w s).copyB = s.copyB ∧
    (formatReady e discarded w s).freeCount = s.freeCount := by
  simp [formatReady]

@[simp] theorem formatThirdPhase_frame (e : Entry) (discarded : Nat) (s : State) :
    (formatThirdPhase e discarded s).pending = s.pending ∧ (formatThirdPhase e discarded s).pc = s.pc ∧ (formatThirdPhase e discarded s).tb = s.tb ∧
    (formatThirdPhase e discarded s).wu = s.wu ∧ (formatThirdPhase e discarded s).copyA = s.copyA ∧ (formatThirdPhase e discarded s).copyB = s.copyB ∧
    (formatThirdPhase e discarded s).freeCount = s.freeCount := by
  simp [formatThirdPhase]

@[simp] theorem prepared_frame (g : Seg) (s : State) :
    (prepared g s).pending = s.pending ∧ (prepared g s).pc = s.pc ∧ (prepared g s).au = s.au ∧
    (prepared g s).tb = s.tb ∧ (prepared g s).cu = s.cu ∧ (prepared g s).wu = s.wu ∧ (prepared g s).cp = s.cp ∧
    (prepared g s).hp = s.hp ∧ (prepared g s).copyA = s.copyA ∧ (prepared g s).copyB = s.copyB ∧
    (prepared g s).freeCount = s.freeCount := by
  simp [prepared]

@[simp] theorem formatCleared_frame (g : Seg) (s : State) :
    (formatCleared g s).pending = s.pending ∧ (formatCleared g s).pc = s.pc ∧ (formatCleared g s).tb = s.tb ∧
    (formatCleared g s).wu = s.wu ∧ (formatCleared g s).copyA = s.copyA ∧ (formatCleared g s).copyB = s.copyB ∧
    (formatCleared g s).freeCount = s.freeCount := by
  unfold formatCleared; (repeat' split) <;> simp

@[simp] theorem coldCleared_frame (g : Seg) (s : State) :
    (coldCleared g s).pending = s.pending ∧ (coldCleared g s).pc = s.pc ∧ (coldCleared g s).tb = s.tb ∧
    (coldCleared g s).cu = s.cu ∧ (coldCleared g s).wu = s.wu ∧ (coldCleared g s).cp = s.cp ∧
    (coldCleared g s).copyA = s.copyA ∧ (coldCleared g s).copyB = s.copyB ∧
    (coldCleared g s).freeCount = s.freeCount := by
  unfold coldCleared; split <;> simp

@[simp] theorem preparationCleared_frame (s : State) :
    (preparationCleared s).pending = s.pending ∧ (preparationCleared s).pc = s.pc ∧
    (preparationCleared s).tb = s.tb ∧ (preparationCleared s).wu = s.wu ∧ (preparationCleared s).cp = s.cp ∧
    (preparationCleared s).copyA = s.copyA ∧ (preparationCleared s).copyB = s.copyB ∧
    (preparationCleared s).freeCount = s.freeCount := by
  unfold preparationCleared; (repeat' split) <;> simp

@[simp] theorem copyCompletes_frame (s : State) :
    (copyCompletes s).pending = s.pending ∧ (copyCompletes s).pc = s.pc ∧ (copyCompletes s).au = s.au ∧
    (copyCompletes s).tb = s.tb ∧ (copyCompletes s).cu = s.cu ∧ (copyCompletes s).wu = s.wu ∧
    (copyCompletes s).mem = s.mem ∧ (copyCompletes s).copyA = s.copyA ∧ (copyCompletes s).copyB = s.copyB ∧
    (copyCompletes s).freeCount = s.freeCount := by
  unfold copyCompletes; dsimp only; refine ⟨?_, ?_, ?_, ?_, ?_, ?_, ?_, ?_, ?_, ?_⟩ <;> (repeat' split) <;> simp

@[simp] theorem nextCopy_frame (s : State) :
    (nextCopy s).pending = s.pending ∧ (nextCopy s).au = s.au ∧ (nextCopy s).tb = s.tb ∧ (nextCopy s).cu = s.cu ∧
    (nextCopy s).wu = s.wu ∧ (nextCopy s).hp = s.hp ∧ (nextCopy s).mem = s.mem ∧ (nextCopy s).copyA = s.copyA ∧
    (nextCopy s).copyB = s.copyB ∧ (nextCopy s).freeCount = s.freeCount := by
  unfold nextCopy; split <;> simp

@[simp] theorem copyWritten_frame (w : CopyWrite) (s : State) :
    (copyWritten w s).pending = s.pending ∧ (copyWritten w s).pc = s.pc ∧ (copyWritten w s).au = s.au ∧
    (copyWritten w s).tb = s.tb ∧ (copyWritten w s).cu = s.cu ∧ (copyWritten w s).wu = s.wu ∧
    (copyWritten w s).cp = s.cp ∧ (copyWritten w s).hp = s.hp ∧ (copyWritten w s).mem = s.mem ∧
    (copyWritten w s).freeCount = s.freeCount := by
  simp [copyWritten]

@[simp] theorem takeAppend_frame (e : Entry) (s : State) :
    (takeAppend e s).pending = s.pending ∧ (takeAppend e s).pc = s.pc ∧ (takeAppend e s).js = s.js ∧
    (takeAppend e s).tb = s.tb ∧ (takeAppend e s).cu = s.cu ∧ (takeAppend e s).wu = s.wu ∧
    (takeAppend e s).cp = s.cp ∧ (takeAppend e s).mem = s.mem ∧ (takeAppend e s).copyA = s.copyA ∧
    (takeAppend e s).copyB = s.copyB ∧ (takeAppend e s).freeCount = s.freeCount := by
  unfold takeAppend; split <;> simp

@[simp] theorem beginAppend_frame (data : Record) (origin : Origin) (s : State) :
    (beginAppend data origin s).pending = s.pending ∧ (beginAppend data origin s).copyA = s.copyA ∧
    (beginAppend data origin s).copyB = s.copyB ∧ (beginAppend data origin s).freeCount = s.freeCount := by
  simp [beginAppend]

@[simp] theorem takeSystem_frame (q : SysRequest) (s : State) :
    (takeSystem q s).pending = s.pending ∧ (takeSystem q s).copyA = s.copyA ∧ (takeSystem q s).copyB = s.copyB ∧
    (takeSystem q s).freeCount = s.freeCount := by
  simp [takeSystem]

@[simp] theorem takeHost_frame (s : State) :
    (takeHost s).pending = s.pending ∧ (takeHost s).copyA = s.copyA ∧ (takeHost s).copyB = s.copyB ∧
    (takeHost s).freeCount = s.freeCount := by
  unfold takeHost; split <;> simp

@[simp] theorem takeCapture_frame (i : Fin 2) (k : Nat) (s : State) :
    (takeCapture i k s).pending = s.pending ∧ (takeCapture i k s).copyA = s.copyA ∧
    (takeCapture i k s).copyB = s.copyB ∧ (takeCapture i k s).freeCount = s.freeCount := by
  unfold takeCapture; split <;> simp

@[simp] theorem arbiterChoice_frame (s : State) :
    (arbiterChoice s).pending = s.pending ∧ (arbiterChoice s).copyA = s.copyA ∧ (arbiterChoice s).copyB = s.copyB ∧
    (arbiterChoice s).freeCount = s.freeCount := by
  unfold arbiterChoice; (repeat' split) <;> simp

@[simp] theorem nextSegmentRequest_frame (r : InProgress) (s : State) :
    (nextSegmentRequest r s).pending = s.pending ∧ (nextSegmentRequest r s).copyA = s.copyA ∧
    (nextSegmentRequest r s).copyB = s.copyB ∧ (nextSegmentRequest r s).freeCount = s.freeCount := by
  unfold nextSegmentRequest; (repeat' split) <;> simp

@[simp] theorem reportFloor_frame (old : Option Nat) (s : State) :
    (reportFloor old s).pending = s.pending ∧ (reportFloor old s).pc = s.pc ∧ (reportFloor old s).au = s.au ∧
    (reportFloor old s).tb = s.tb ∧ (reportFloor old s).wu = s.wu ∧ (reportFloor old s).cp = s.cp ∧
    (reportFloor old s).hp = s.hp ∧ (reportFloor old s).mem = s.mem ∧ (reportFloor old s).copyA = s.copyA ∧
    (reportFloor old s).copyB = s.copyB ∧ (reportFloor old s).freeCount = s.freeCount := by
  unfold reportFloor; dsimp only; refine ⟨?_, ?_, ?_, ?_, ?_, ?_, ?_, ?_, ?_, ?_, ?_⟩ <;> (repeat' split) <;> simp

@[simp] theorem onCursor_frame (c : Fin 4) (f : Cursor → Cursor) (s : State) :
    (onCursor c f s).pending = s.pending ∧ (onCursor c f s).pc = s.pc ∧ (onCursor c f s).js = s.js ∧
    (onCursor c f s).au = s.au ∧ (onCursor c f s).tb = s.tb ∧ (onCursor c f s).wu = s.wu ∧
    (onCursor c f s).cp = s.cp ∧ (onCursor c f s).hp = s.hp ∧ (onCursor c f s).mem = s.mem ∧
    (onCursor c f s).copyA = s.copyA ∧ (onCursor c f s).copyB = s.copyB ∧ (onCursor c f s).freeCount = s.freeCount := by
  simp [onCursor]

@[simp] theorem reportLoss_frame (c : Fin 4) (n : Nat) (s : State) :
    (reportLoss c n s).pending = s.pending ∧ (reportLoss c n s).pc = s.pc ∧ (reportLoss c n s).js = s.js ∧
    (reportLoss c n s).au = s.au ∧ (reportLoss c n s).tb = s.tb ∧ (reportLoss c n s).wu = s.wu ∧
    (reportLoss c n s).cp = s.cp ∧ (reportLoss c n s).mem = s.mem ∧ (reportLoss c n s).copyA = s.copyA ∧
    (reportLoss c n s).copyB = s.copyB ∧ (reportLoss c n s).freeCount = s.freeCount := by
  unfold reportLoss; split <;> simp

@[simp] theorem lossCheck_frame (c : Fin 4) (s : State) :
    (lossCheck c s).pending = s.pending ∧ (lossCheck c s).pc = s.pc ∧ (lossCheck c s).js = s.js ∧
    (lossCheck c s).au = s.au ∧ (lossCheck c s).tb = s.tb ∧ (lossCheck c s).wu = s.wu ∧ (lossCheck c s).cp = s.cp ∧
    (lossCheck c s).mem = s.mem ∧ (lossCheck c s).copyA = s.copyA ∧ (lossCheck c s).copyB = s.copyB ∧
    (lossCheck c s).freeCount = s.freeCount := by
  simp [lossCheck]

@[simp] theorem setWindow_frame (c : Fin 4) (image : List Byte) (s : State) :
    (setWindow c image s).pending = s.pending ∧ (setWindow c image s).pc = s.pc ∧ (setWindow c image s).js = s.js ∧
    (setWindow c image s).au = s.au ∧ (setWindow c image s).tb = s.tb ∧ (setWindow c image s).wu = s.wu ∧
    (setWindow c image s).cp = s.cp ∧ (setWindow c image s).hp = s.hp ∧ (setWindow c image s).mem = s.mem ∧
    (setWindow c image s).copyA = s.copyA ∧ (setWindow c image s).copyB = s.copyB ∧
    (setWindow c image s).freeCount = s.freeCount := by
  unfold setWindow; split <;> simp

@[simp] theorem withFloor_frame (f : State → State) (s : State) :
    (withFloor f s).pending = (f s).pending ∧ (withFloor f s).pc = (f s).pc ∧ (withFloor f s).au = (f s).au ∧
    (withFloor f s).tb = (f s).tb ∧ (withFloor f s).wu = (f s).wu ∧ (withFloor f s).cp = (f s).cp ∧
    (withFloor f s).hp = (f s).hp ∧ (withFloor f s).mem = (f s).mem ∧ (withFloor f s).copyA = (f s).copyA ∧
    (withFloor f s).copyB = (f s).copyB ∧ (withFloor f s).freeCount = (f s).freeCount := by
  unfold withFloor; simp

@[simp] theorem endScan_frame (e : Entry) (sc : Scan) (pos : Nat) (result : Result) (limited : Bool) (fields : Nat → List Byte) (s : State) :
    (endScan e sc pos result limited fields s).pending = s.pending ∧
    (endScan e sc pos result limited fields s).pc = s.pc ∧ (endScan e sc pos result limited fields s).au = s.au ∧
    (endScan e sc pos result limited fields s).tb = s.tb ∧ (endScan e sc pos result limited fields s).wu = s.wu ∧
    (endScan e sc pos result limited fields s).cp = s.cp ∧ (endScan e sc pos result limited fields s).mem = s.mem ∧
    (endScan e sc pos result limited fields s).copyA = s.copyA ∧
    (endScan e sc pos result limited fields s).copyB = s.copyB ∧
    (endScan e sc pos result limited fields s).freeCount = s.freeCount := by
  simp [endScan]

@[simp] theorem countDelivered_frame (c : Fin 4) (s : State) :
    (countDelivered c s).pending = s.pending ∧ (countDelivered c s).pc = s.pc ∧ (countDelivered c s).js = s.js ∧
    (countDelivered c s).au = s.au ∧ (countDelivered c s).tb = s.tb ∧ (countDelivered c s).wu = s.wu ∧
    (countDelivered c s).cp = s.cp ∧ (countDelivered c s).hp = s.hp ∧ (countDelivered c s).mem = s.mem ∧
    (countDelivered c s).copyA = s.copyA ∧ (countDelivered c s).copyB = s.copyB ∧
    (countDelivered c s).freeCount = s.freeCount := by
  simp [countDelivered]

@[simp] theorem endCount_frame (e : Entry) (sc : Scan) (limited : Bool) (s : State) :
    (endCount e sc limited s).pending = s.pending ∧ (endCount e sc limited s).pc = s.pc ∧
    (endCount e sc limited s).au = s.au ∧ (endCount e sc limited s).tb = s.tb ∧
    (endCount e sc limited s).wu = s.wu ∧ (endCount e sc limited s).cp = s.cp ∧
    (endCount e sc limited s).mem = s.mem ∧ (endCount e sc limited s).copyA = s.copyA ∧
    (endCount e sc limited s).copyB = s.copyB ∧ (endCount e sc limited s).freeCount = s.freeCount := by
  simp [endCount]

@[simp] theorem endSeek_frame (e : Entry) (sc : Scan) (pos : Nat) (s : State) :
    (endSeek e sc pos s).pending = s.pending ∧ (endSeek e sc pos s).pc = s.pc ∧ (endSeek e sc pos s).au = s.au ∧
    (endSeek e sc pos s).tb = s.tb ∧ (endSeek e sc pos s).wu = s.wu ∧ (endSeek e sc pos s).cp = s.cp ∧
    (endSeek e sc pos s).mem = s.mem ∧ (endSeek e sc pos s).copyA = s.copyA ∧
    (endSeek e sc pos s).copyB = s.copyB ∧ (endSeek e sc pos s).freeCount = s.freeCount := by
  simp [endSeek]

@[simp] theorem park_frame (e : Entry) (sc : Scan) (tail : Nat) (s : State) :
    (park e sc tail s).pending = s.pending ∧ (park e sc tail s).pc = s.pc ∧ (park e sc tail s).au = s.au ∧
    (park e sc tail s).tb = s.tb ∧ (park e sc tail s).wu = s.wu ∧ (park e sc tail s).cp = s.cp ∧
    (park e sc tail s).hp = s.hp ∧ (park e sc tail s).mem = s.mem ∧ (park e sc tail s).copyA = s.copyA ∧
    (park e sc tail s).copyB = s.copyB ∧ (park e sc tail s).freeCount = s.freeCount := by
  simp [park]

@[simp] theorem atTail_frame (e : Entry) (sc : Scan) (s : State) :
    (atTail e sc s).pending = s.pending ∧ (atTail e sc s).pc = s.pc ∧ (atTail e sc s).au = s.au ∧
    (atTail e sc s).tb = s.tb ∧ (atTail e sc s).wu = s.wu ∧ (atTail e sc s).cp = s.cp ∧
    (atTail e sc s).mem = s.mem ∧ (atTail e sc s).copyA = s.copyA ∧ (atTail e sc s).copyB = s.copyB ∧
    (atTail e sc s).freeCount = s.freeCount := by
  unfold atTail; (repeat' split) <;> simp

@[simp] theorem atHead_frame (e : Entry) (sc : Scan) (before : Nat) (s : State) :
    (atHead e sc before s).pending = s.pending ∧ (atHead e sc before s).pc = s.pc ∧
    (atHead e sc before s).au = s.au ∧ (atHead e sc before s).tb = s.tb ∧ (atHead e sc before s).wu = s.wu ∧
    (atHead e sc before s).cp = s.cp ∧ (atHead e sc before s).mem = s.mem ∧
    (atHead e sc before s).copyA = s.copyA ∧ (atHead e sc before s).copyB = s.copyB ∧
    (atHead e sc before s).freeCount = s.freeCount := by
  unfold atHead; split <;> simp

@[simp] theorem setScan_frame (e : Entry) (sc : Scan) (s : State) :
    (setScan e sc s).pending = s.pending ∧ (setScan e sc s).pc = s.pc ∧ (setScan e sc s).js = s.js ∧
    (setScan e sc s).au = s.au ∧ (setScan e sc s).tb = s.tb ∧ (setScan e sc s).wu = s.wu ∧
    (setScan e sc s).cp = s.cp ∧ (setScan e sc s).hp = s.hp ∧ (setScan e sc s).mem = s.mem ∧
    (setScan e sc s).copyA = s.copyA ∧ (setScan e sc s).copyB = s.copyB ∧ (setScan e sc s).freeCount = s.freeCount := by
  simp [setScan]

@[simp] theorem examine_frame (e : Entry) (sc : Scan) (u : Nat) (next : Onward) (s : State) :
    (examine e sc u next s).pending = s.pending ∧ (examine e sc u next s).pc = s.pc ∧
    (examine e sc u next s).au = s.au ∧ (examine e sc u next s).tb = s.tb ∧ (examine e sc u next s).wu = s.wu ∧
    (examine e sc u next s).cp = s.cp ∧ (examine e sc u next s).mem = s.mem ∧
    (examine e sc u next s).copyA = s.copyA ∧ (examine e sc u next s).copyB = s.copyB ∧
    (examine e sc u next s).freeCount = s.freeCount := by
  unfold examine; dsimp only; refine ⟨?_, ?_, ?_, ?_, ?_, ?_, ?_, ?_, ?_, ?_⟩ <;> (repeat' split) <;> simp

@[simp] theorem markSeen_frame (c : Fin 4) (stop : ReclaimNotice → Bool) (s : State) :
    (markSeen c stop s).pending = s.pending ∧ (markSeen c stop s).pc = s.pc ∧ (markSeen c stop s).js = s.js ∧
    (markSeen c stop s).au = s.au ∧ (markSeen c stop s).tb = s.tb ∧ (markSeen c stop s).wu = s.wu ∧
    (markSeen c stop s).cp = s.cp ∧ (markSeen c stop s).hp = s.hp ∧ (markSeen c stop s).mem = s.mem ∧
    (markSeen c stop s).copyA = s.copyA ∧ (markSeen c stop s).copyB = s.copyB ∧
    (markSeen c stop s).freeCount = s.freeCount := by
  simp [markSeen]

/-- With no new reclamation that `stop` accepts, the cursor learns of all. -/
theorem learn_of_find_none (c : Fin 4) (stop : ReclaimNotice → Bool) (rs : List ReclaimNotice)
    (h : (rs.filter (ReclaimNotice.unseenBy c)).find? stop = none) :
    learn c stop rs = rs.map (fun n => { n with seenBy := c :: n.seenBy }) := by
  induction rs with
  | nil => rfl
  | cons n rest ih => cases hu : n.unseenBy c <;> simp_all [learn]

/-- The cursor learns of the reclamations up to the first new one that `stop` accepts, and of no later one. -/
theorem learn_of_first (c : Fin 4) (stop : ReclaimNotice → Bool) (before : List ReclaimNotice) (n : ReclaimNotice)
    (after : List ReclaimNotice) (hn : n.unseenBy c = true) (hs : stop n = true)
    (hb : ∀ m ∈ before, m.unseenBy c = true → stop m = false) :
    learn c stop (before ++ n :: after) =
      (before ++ [n]).map (fun n => { n with seenBy := c :: n.seenBy }) ++ after := by
  induction before with
  | nil => simp [learn, hn, hs]
  | cons m before ih =>
    have := hb m (by simp)
    have := ih (fun k hk => hb k (by simp [hk]))
    cases hu : m.unseenBy c <;> simp_all [learn]

/-- A reclamation that takes away the number to be examined next ends the scan (R123). -/
theorem lossesOf_ends (q : Nat) (before : List ReclaimNotice) (n : ReclaimNotice) (after : List ReclaimNotice)
    (h : q < n.newHead) : (lossesOf q (before ++ n :: after)).1 = true := by
  induction before with
  | nil => simp [lossesOf, ReclaimNotice.loss, h]
  | cons m before ih => by_cases hm : q < m.newHead <;> simp [lossesOf, ReclaimNotice.loss, hm, ih]

/-- With no such reclamation the scan goes on (R123). -/
theorem lossesOf_goes_on (q : Nat) (ns : List ReclaimNotice) (h : ∀ m ∈ ns, ¬ q < m.newHead) : (lossesOf q ns).1 = false := by
  induction ns with
  | nil => rfl
  | cons m ns ih => simp [lossesOf, ReclaimNotice.loss, h m (by simp), ih (fun k hk => h k (by simp [hk]))]

@[simp] theorem overtakeForward_frame (e : Entry) (sc : Scan) (g : Seg) (h : Nat) (s : State) :
    (overtakeForward e sc g h s).pending = s.pending ∧ (overtakeForward e sc g h s).pc = s.pc ∧
    (overtakeForward e sc g h s).js = s.js ∧ (overtakeForward e sc g h s).au = s.au ∧
    (overtakeForward e sc g h s).tb = s.tb ∧ (overtakeForward e sc g h s).wu = s.wu ∧
    (overtakeForward e sc g h s).cp = s.cp ∧ (overtakeForward e sc g h s).mem = s.mem ∧
    (overtakeForward e sc g h s).copyA = s.copyA ∧ (overtakeForward e sc g h s).copyB = s.copyB ∧
    (overtakeForward e sc g h s).freeCount = s.freeCount := by
  simp [overtakeForward]

@[simp] theorem afterReclaims_frame (e : Entry) (sc : Scan) (l : Bool × Nat) (b : Nat) (s : State) :
    (afterReclaims e sc l b s).pending = s.pending ∧ (afterReclaims e sc l b s).pc = s.pc ∧ (afterReclaims e sc l b s).au = s.au ∧
    (afterReclaims e sc l b s).tb = s.tb ∧ (afterReclaims e sc l b s).wu = s.wu ∧ (afterReclaims e sc l b s).cp = s.cp ∧
    (afterReclaims e sc l b s).mem = s.mem ∧ (afterReclaims e sc l b s).copyA = s.copyA ∧ (afterReclaims e sc l b s).copyB = s.copyB ∧
    (afterReclaims e sc l b s).freeCount = s.freeCount := by
  unfold afterReclaims; dsimp only; split <;> simp

@[simp] theorem findsGone_frame (e : Entry) (sc : Scan) (s : State) :
    (findsGone e sc s).pending = s.pending ∧ (findsGone e sc s).pc = s.pc ∧ (findsGone e sc s).au = s.au ∧
    (findsGone e sc s).tb = s.tb ∧ (findsGone e sc s).wu = s.wu ∧ (findsGone e sc s).cp = s.cp ∧
    (findsGone e sc s).mem = s.mem ∧ (findsGone e sc s).copyA = s.copyA ∧ (findsGone e sc s).copyB = s.copyB ∧
    (findsGone e sc s).freeCount = s.freeCount := by
  unfold findsGone; dsimp only; (repeat' split) <;> simp

@[simp] theorem readForward_frame (e : Entry) (sc : Scan) (u : Nat) (s : State) :
    (readForward e sc u s).pending = s.pending ∧ (readForward e sc u s).pc = s.pc ∧
    (readForward e sc u s).au = s.au ∧ (readForward e sc u s).tb = s.tb ∧ (readForward e sc u s).wu = s.wu ∧
    (readForward e sc u s).cp = s.cp ∧ (readForward e sc u s).mem = s.mem ∧
    (readForward e sc u s).copyA = s.copyA ∧ (readForward e sc u s).copyB = s.copyB ∧
    (readForward e sc u s).freeCount = s.freeCount := by
  unfold readForward; dsimp only; refine ⟨?_, ?_, ?_, ?_, ?_, ?_, ?_, ?_, ?_, ?_⟩ <;> (repeat' split) <;> simp

@[simp] theorem stepForward_frame (e : Entry) (sc : Scan) (s : State) :
    (stepForward e sc s).pending = s.pending ∧ (stepForward e sc s).pc = s.pc ∧ (stepForward e sc s).au = s.au ∧
    (stepForward e sc s).tb = s.tb ∧ (stepForward e sc s).wu = s.wu ∧ (stepForward e sc s).cp = s.cp ∧
    (stepForward e sc s).mem = s.mem ∧ (stepForward e sc s).copyA = s.copyA ∧
    (stepForward e sc s).copyB = s.copyB ∧ (stepForward e sc s).freeCount = s.freeCount := by
  unfold stepForward; (repeat' split) <;> simp

@[simp] theorem leaveBackward_frame (e : Entry) (sc : Scan) (s : State) :
    (leaveBackward e sc s).pending = s.pending ∧ (leaveBackward e sc s).pc = s.pc ∧
    (leaveBackward e sc s).au = s.au ∧ (leaveBackward e sc s).tb = s.tb ∧ (leaveBackward e sc s).wu = s.wu ∧
    (leaveBackward e sc s).cp = s.cp ∧ (leaveBackward e sc s).mem = s.mem ∧
    (leaveBackward e sc s).copyA = s.copyA ∧ (leaveBackward e sc s).copyB = s.copyB ∧
    (leaveBackward e sc s).freeCount = s.freeCount := by
  unfold leaveBackward; split <;> simp

@[simp] theorem stepBackward_frame (e : Entry) (sc : Scan) (s : State) :
    (stepBackward e sc s).pending = s.pending ∧ (stepBackward e sc s).pc = s.pc ∧ (stepBackward e sc s).au = s.au ∧
    (stepBackward e sc s).tb = s.tb ∧ (stepBackward e sc s).wu = s.wu ∧ (stepBackward e sc s).cp = s.cp ∧
    (stepBackward e sc s).mem = s.mem ∧ (stepBackward e sc s).copyA = s.copyA ∧
    (stepBackward e sc s).copyB = s.copyB ∧ (stepBackward e sc s).freeCount = s.freeCount := by
  unfold stepBackward; dsimp only; refine ⟨?_, ?_, ?_, ?_, ?_, ?_, ?_, ?_, ?_, ?_⟩ <;> (repeat' split) <;> simp

@[simp] theorem tailTest_frame (e : Entry) (sc : Scan) (s : State) :
    (tailTest e sc s).pending = s.pending ∧ (tailTest e sc s).pc = s.pc ∧ (tailTest e sc s).au = s.au ∧
    (tailTest e sc s).tb = s.tb ∧ (tailTest e sc s).wu = s.wu ∧ (tailTest e sc s).cp = s.cp ∧
    (tailTest e sc s).mem = s.mem ∧ (tailTest e sc s).copyA = s.copyA ∧ (tailTest e sc s).copyB = s.copyB ∧
    (tailTest e sc s).freeCount = s.freeCount := by
  unfold tailTest; (repeat' split) <;> simp

@[simp] theorem answerCu_frame (e : Entry) (r : Result) (lost : Bool) (fields : List Byte) (s : State) :
    (answerCu e r lost fields s).pending = s.pending ∧ (answerCu e r lost fields s).pc = s.pc ∧
    (answerCu e r lost fields s).js = s.js ∧ (answerCu e r lost fields s).au = s.au ∧
    (answerCu e r lost fields s).tb = s.tb ∧ (answerCu e r lost fields s).wu = s.wu ∧
    (answerCu e r lost fields s).cp = s.cp ∧ (answerCu e r lost fields s).mem = s.mem ∧
    (answerCu e r lost fields s).copyA = s.copyA ∧ (answerCu e r lost fields s).copyB = s.copyB ∧
    (answerCu e r lost fields s).freeCount = s.freeCount := by
  simp [answerCu]

@[simp] theorem rejectCu_frame (e : Entry) (r : Result) (s : State) :
    (rejectCu e r s).pending = s.pending ∧ (rejectCu e r s).pc = s.pc ∧ (rejectCu e r s).js = s.js ∧
    (rejectCu e r s).au = s.au ∧ (rejectCu e r s).tb = s.tb ∧ (rejectCu e r s).wu = s.wu ∧
    (rejectCu e r s).cp = s.cp ∧ (rejectCu e r s).mem = s.mem ∧ (rejectCu e r s).copyA = s.copyA ∧
    (rejectCu e r s).copyB = s.copyB ∧ (rejectCu e r s).freeCount = s.freeCount := by
  simp [rejectCu]

@[simp] theorem openCursor_frame (e : Entry) (s : State) :
    (openCursor e s).pending = s.pending ∧ (openCursor e s).pc = s.pc ∧ (openCursor e s).au = s.au ∧
    (openCursor e s).tb = s.tb ∧ (openCursor e s).wu = s.wu ∧ (openCursor e s).cp = s.cp ∧
    (openCursor e s).mem = s.mem ∧ (openCursor e s).copyA = s.copyA ∧ (openCursor e s).copyB = s.copyB ∧
    (openCursor e s).freeCount = s.freeCount := by
  unfold openCursor; (repeat' split) <;> simp

@[simp] theorem seek_frame (c : Fin 4) (e : Entry) (s : State) :
    (seek c e s).pending = s.pending ∧ (seek c e s).pc = s.pc ∧ (seek c e s).au = s.au ∧ (seek c e s).tb = s.tb ∧
    (seek c e s).wu = s.wu ∧ (seek c e s).cp = s.cp ∧ (seek c e s).mem = s.mem ∧ (seek c e s).copyA = s.copyA ∧
    (seek c e s).copyB = s.copyB ∧ (seek c e s).freeCount = s.freeCount := by
  unfold seek; split <;> simp

@[simp] theorem startScan_frame (e : Entry) (sc : Scan) (s : State) :
    (startScan e sc s).pending = s.pending ∧ (startScan e sc s).pc = s.pc ∧ (startScan e sc s).js = s.js ∧
    (startScan e sc s).au = s.au ∧ (startScan e sc s).tb = s.tb ∧ (startScan e sc s).wu = s.wu ∧
    (startScan e sc s).cp = s.cp ∧ (startScan e sc s).hp = s.hp ∧ (startScan e sc s).mem = s.mem ∧
    (startScan e sc s).copyA = s.copyA ∧ (startScan e sc s).copyB = s.copyB ∧
    (startScan e sc s).freeCount = s.freeCount := by
  simp [startScan]

@[simp] theorem seekTime_frame (c : Fin 4) (e : Entry) (s : State) :
    (seekTime c e s).pending = s.pending ∧ (seekTime c e s).pc = s.pc ∧ (seekTime c e s).js = s.js ∧
    (seekTime c e s).au = s.au ∧ (seekTime c e s).tb = s.tb ∧ (seekTime c e s).wu = s.wu ∧
    (seekTime c e s).cp = s.cp ∧ (seekTime c e s).mem = s.mem ∧ (seekTime c e s).copyA = s.copyA ∧
    (seekTime c e s).copyB = s.copyB ∧ (seekTime c e s).freeCount = s.freeCount := by
  unfold seekTime; split <;> simp

@[simp] theorem beginScan_frame (kind : ScanKind) (c : Fin 4) (e : Entry) (s : State) :
    (beginScan kind c e s).pending = s.pending ∧ (beginScan kind c e s).pc = s.pc ∧
    (beginScan kind c e s).au = s.au ∧ (beginScan kind c e s).tb = s.tb ∧ (beginScan kind c e s).wu = s.wu ∧
    (beginScan kind c e s).cp = s.cp ∧ (beginScan kind c e s).mem = s.mem ∧
    (beginScan kind c e s).copyA = s.copyA ∧ (beginScan kind c e s).copyB = s.copyB ∧
    (beginScan kind c e s).freeCount = s.freeCount := by
  unfold beginScan; dsimp only; refine ⟨?_, ?_, ?_, ?_, ?_, ?_, ?_, ?_, ?_, ?_⟩ <;> (repeat' split) <;> simp

@[simp] theorem cancel_frame (c : Fin 4) (e : Entry) (s : State) :
    (cancel c e s).pending = s.pending ∧ (cancel c e s).pc = s.pc ∧ (cancel c e s).js = s.js ∧
    (cancel c e s).au = s.au ∧ (cancel c e s).tb = s.tb ∧ (cancel c e s).wu = s.wu ∧ (cancel c e s).cp = s.cp ∧
    (cancel c e s).mem = s.mem ∧ (cancel c e s).copyA = s.copyA ∧ (cancel c e s).copyB = s.copyB ∧
    (cancel c e s).freeCount = s.freeCount := by
  unfold cancel; split <;> simp

@[simp] theorem close_frame (c : Fin 4) (e : Entry) (s : State) :
    (close c e s).pending = s.pending ∧ (close c e s).pc = s.pc ∧ (close c e s).au = s.au ∧
    (close c e s).tb = s.tb ∧ (close c e s).wu = s.wu ∧ (close c e s).cp = s.cp ∧ (close c e s).mem = s.mem ∧
    (close c e s).copyA = s.copyA ∧ (close c e s).copyB = s.copyB ∧ (close c e s).freeCount = s.freeCount := by
  unfold close; split <;> simp

@[simp] theorem cursorStatus_frame (c : Fin 4) (e : Entry) (s : State) :
    (cursorStatus c e s).pending = s.pending ∧ (cursorStatus c e s).pc = s.pc ∧ (cursorStatus c e s).js = s.js ∧
    (cursorStatus c e s).au = s.au ∧ (cursorStatus c e s).tb = s.tb ∧ (cursorStatus c e s).wu = s.wu ∧
    (cursorStatus c e s).cp = s.cp ∧ (cursorStatus c e s).mem = s.mem ∧ (cursorStatus c e s).copyA = s.copyA ∧
    (cursorStatus c e s).copyB = s.copyB ∧ (cursorStatus c e s).freeCount = s.freeCount := by
  unfold cursorStatus; split <;> simp

@[simp] theorem parkedNotice_frame (n : Notice) (c : Fin 4) (s : State) :
    (parkedNotice n c s).pending = s.pending ∧ (parkedNotice n c s).pc = s.pc ∧ (parkedNotice n c s).js = s.js ∧
    (parkedNotice n c s).au = s.au ∧ (parkedNotice n c s).tb = s.tb ∧ (parkedNotice n c s).wu = s.wu ∧
    (parkedNotice n c s).cp = s.cp ∧ (parkedNotice n c s).mem = s.mem ∧ (parkedNotice n c s).copyA = s.copyA ∧
    (parkedNotice n c s).copyB = s.copyB ∧ (parkedNotice n c s).freeCount = s.freeCount := by
  unfold parkedNotice; dsimp only; refine ⟨?_, ?_, ?_, ?_, ?_, ?_, ?_, ?_, ?_, ?_, ?_⟩ <;> (repeat' split) <;> simp

@[simp] theorem foldl_parkedNotice_frame (n : Notice) (l : List (Fin 4)) (s : State) :
    (List.foldl (fun s c => parkedNotice n c s) s l).pending = s.pending ∧
      (List.foldl (fun s c => parkedNotice n c s) s l).pc = s.pc ∧
      (List.foldl (fun s c => parkedNotice n c s) s l).js = s.js ∧
      (List.foldl (fun s c => parkedNotice n c s) s l).au = s.au ∧
      (List.foldl (fun s c => parkedNotice n c s) s l).tb = s.tb ∧
      (List.foldl (fun s c => parkedNotice n c s) s l).wu = s.wu ∧
      (List.foldl (fun s c => parkedNotice n c s) s l).cp = s.cp ∧
      (List.foldl (fun s c => parkedNotice n c s) s l).mem = s.mem ∧
      (List.foldl (fun s c => parkedNotice n c s) s l).copyA = s.copyA ∧
      (List.foldl (fun s c => parkedNotice n c s) s l).copyB = s.copyB ∧
      (List.foldl (fun s c => parkedNotice n c s) s l).freeCount = s.freeCount :=
  ⟨foldl_keeps (p := State.pending) _ (by simp) _ _, foldl_keeps (p := State.pc) _ (by simp) _ _, foldl_keeps (p := State.js) _ (by simp) _ _, foldl_keeps (p := State.au) _ (by simp) _ _, foldl_keeps (p := State.tb) _ (by simp) _ _, foldl_keeps (p := State.wu) _ (by simp) _ _, foldl_keeps (p := State.cp) _ (by simp) _ _, foldl_keeps (p := State.mem) _ (by simp) _ _, foldl_keeps (p := State.copyA) _ (by simp) _ _, foldl_keeps (p := State.copyB) _ (by simp) _ _, foldl_keeps (p := State.freeCount) _ (by simp) _ _⟩

@[simp] theorem scanReclaimed_frame (n : ReclaimNotice) (e : Entry) (sc : Scan) (s : State) :
    (scanReclaimed n e sc s).pending = s.pending ∧ (scanReclaimed n e sc s).pc = s.pc ∧
    (scanReclaimed n e sc s).au = s.au ∧ (scanReclaimed n e sc s).tb = s.tb ∧ (scanReclaimed n e sc s).wu = s.wu ∧
    (scanReclaimed n e sc s).cp = s.cp ∧ (scanReclaimed n e sc s).mem = s.mem ∧
    (scanReclaimed n e sc s).copyA = s.copyA ∧ (scanReclaimed n e sc s).copyB = s.copyB ∧
    (scanReclaimed n e sc s).freeCount = s.freeCount := by
  unfold scanReclaimed; dsimp only; (repeat' split) <;> simp

@[simp] theorem framingFailure_frame (s : State) :
    (framingFailure s).pending = s.pending ∧ (framingFailure s).pc = s.pc ∧ (framingFailure s).js = s.js ∧
    (framingFailure s).au = s.au ∧ (framingFailure s).tb = s.tb ∧ (framingFailure s).cu = s.cu ∧
    (framingFailure s).wu = s.wu ∧ (framingFailure s).mem = s.mem ∧ (framingFailure s).copyA = s.copyA ∧
    (framingFailure s).copyB = s.copyB ∧ (framingFailure s).freeCount = s.freeCount := by
  simp [framingFailure]

@[simp] theorem recordByte_frame (c : Byte) (r : Reception) (s : State) :
    (recordByte c r s).pending = s.pending ∧ (recordByte c r s).pc = s.pc ∧ (recordByte c r s).js = s.js ∧
    (recordByte c r s).au = s.au ∧ (recordByte c r s).tb = s.tb ∧ (recordByte c r s).cu = s.cu ∧
    (recordByte c r s).wu = s.wu ∧ (recordByte c r s).mem = s.mem ∧ (recordByte c r s).copyA = s.copyA ∧
    (recordByte c r s).copyB = s.copyB ∧ (recordByte c r s).freeCount = s.freeCount := by
  unfold recordByte; dsimp only; refine ⟨?_, ?_, ?_, ?_, ?_, ?_, ?_, ?_, ?_, ?_, ?_⟩ <;> (repeat' split) <;> simp

@[simp] theorem endMarker_frame (r : Reception) (s : State) :
    (endMarker r s).pending = s.pending ∧ (endMarker r s).pc = s.pc ∧ (endMarker r s).js = s.js ∧
    (endMarker r s).au = s.au ∧ (endMarker r s).tb = s.tb ∧ (endMarker r s).cu = s.cu ∧ (endMarker r s).wu = s.wu ∧
    (endMarker r s).mem = s.mem ∧ (endMarker r s).copyA = s.copyA ∧ (endMarker r s).copyB = s.copyB ∧
    (endMarker r s).freeCount = s.freeCount := by
  unfold endMarker; (repeat' split) <;> simp

@[simp] theorem trailerByte_frame (c : Byte) (good : Bool) (s : State) :
    (trailerByte c good s).pending = s.pending ∧ (trailerByte c good s).pc = s.pc ∧
    (trailerByte c good s).js = s.js ∧ (trailerByte c good s).au = s.au ∧ (trailerByte c good s).tb = s.tb ∧
    (trailerByte c good s).cu = s.cu ∧ (trailerByte c good s).wu = s.wu ∧ (trailerByte c good s).mem = s.mem ∧
    (trailerByte c good s).copyA = s.copyA ∧ (trailerByte c good s).copyB = s.copyB ∧
    (trailerByte c good s).freeCount = s.freeCount := by
  unfold trailerByte; (repeat' split) <;> simp

@[simp] theorem recordsByte_frame (c : Byte) (good : Bool) (s : State) :
    (recordsByte c good s).pending = s.pending ∧ (recordsByte c good s).pc = s.pc ∧
    (recordsByte c good s).js = s.js ∧ (recordsByte c good s).au = s.au ∧ (recordsByte c good s).tb = s.tb ∧
    (recordsByte c good s).cu = s.cu ∧ (recordsByte c good s).wu = s.wu ∧ (recordsByte c good s).mem = s.mem ∧
    (recordsByte c good s).copyA = s.copyA ∧ (recordsByte c good s).copyB = s.copyB ∧
    (recordsByte c good s).freeCount = s.freeCount := by
  unfold recordsByte; (repeat' split) <;> simp

@[simp] theorem receive_frame (c : Byte) (good : Bool) (s : State) :
    (receive c good s).pending = s.pending ∧ (receive c good s).pc = s.pc ∧ (receive c good s).js = s.js ∧
    (receive c good s).au = s.au ∧ (receive c good s).tb = s.tb ∧ (receive c good s).cu = s.cu ∧
    (receive c good s).wu = s.wu ∧ (receive c good s).mem = s.mem ∧ (receive c good s).copyA = s.copyA ∧
    (receive c good s).copyB = s.copyB ∧ (receive c good s).freeCount = s.freeCount := by
  unfold receive; (repeat' split) <;> simp

@[simp] theorem applyCaptureSet_frame (e : Entry) (s : State) :
    (applyCaptureSet e s).pending = s.pending ∧ (applyCaptureSet e s).pc = s.pc ∧ (applyCaptureSet e s).au = s.au ∧
    (applyCaptureSet e s).tb = s.tb ∧ (applyCaptureSet e s).cu = s.cu ∧ (applyCaptureSet e s).wu = s.wu ∧
    (applyCaptureSet e s).hp = s.hp ∧ (applyCaptureSet e s).mem = s.mem ∧ (applyCaptureSet e s).copyA = s.copyA ∧
    (applyCaptureSet e s).copyB = s.copyB ∧ (applyCaptureSet e s).freeCount = s.freeCount := by
  simp [applyCaptureSet]

@[simp] theorem afterFrame_frame (s : State) :
    (afterFrame s).pending = s.pending ∧ (afterFrame s).pc = s.pc ∧ (afterFrame s).au = s.au ∧
    (afterFrame s).tb = s.tb ∧ (afterFrame s).cu = s.cu ∧ (afterFrame s).wu = s.wu ∧ (afterFrame s).hp = s.hp ∧
    (afterFrame s).mem = s.mem ∧ (afterFrame s).copyA = s.copyA ∧ (afterFrame s).copyB = s.copyB ∧
    (afterFrame s).freeCount = s.freeCount := by
  unfold afterFrame; (repeat' split) <;> simp

@[simp] theorem endRefused_frame (s : State) :
    (endRefused s).pending = s.pending ∧ (endRefused s).copyA = s.copyA ∧ (endRefused s).copyB = s.copyB ∧
    (endRefused s).freeCount = s.freeCount := by
  unfold endRefused; (repeat' split) <;> simp

@[simp] theorem answerCp_frame (e : Entry) (r : Result) (fields : List Byte) (s : State) :
    (answerCp e r fields s).pending = s.pending ∧ (answerCp e r fields s).pc = s.pc ∧
    (answerCp e r fields s).js = s.js ∧ (answerCp e r fields s).au = s.au ∧ (answerCp e r fields s).tb = s.tb ∧
    (answerCp e r fields s).cu = s.cu ∧ (answerCp e r fields s).wu = s.wu ∧ (answerCp e r fields s).mem = s.mem ∧
    (answerCp e r fields s).copyA = s.copyA ∧ (answerCp e r fields s).copyB = s.copyB ∧
    (answerCp e r fields s).freeCount = s.freeCount := by
  simp [answerCp]

@[simp] theorem captureSet_frame (e : Entry) (s : State) :
    (captureSet e s).pending = s.pending ∧ (captureSet e s).pc = s.pc ∧ (captureSet e s).au = s.au ∧
    (captureSet e s).tb = s.tb ∧ (captureSet e s).cu = s.cu ∧ (captureSet e s).wu = s.wu ∧
    (captureSet e s).mem = s.mem ∧ (captureSet e s).copyA = s.copyA ∧ (captureSet e s).copyB = s.copyB ∧
    (captureSet e s).freeCount = s.freeCount := by
  unfold captureSet; (repeat' split) <;> simp

@[simp] theorem nodeSet_frame (e : Entry) (s : State) :
    (nodeSet e s).pending = s.pending ∧ (nodeSet e s).pc = s.pc ∧ (nodeSet e s).au = s.au ∧
    (nodeSet e s).tb = s.tb ∧ (nodeSet e s).cu = s.cu ∧ (nodeSet e s).wu = s.wu ∧ (nodeSet e s).mem = s.mem ∧
    (nodeSet e s).copyA = s.copyA ∧ (nodeSet e s).copyB = s.copyB ∧ (nodeSet e s).freeCount = s.freeCount := by
  unfold nodeSet; (repeat' split) <;> simp

@[simp] theorem nodeRead_frame (e : Entry) (s : State) :
    (nodeRead e s).pending = s.pending ∧ (nodeRead e s).pc = s.pc ∧ (nodeRead e s).js = s.js ∧
    (nodeRead e s).au = s.au ∧ (nodeRead e s).tb = s.tb ∧ (nodeRead e s).cu = s.cu ∧ (nodeRead e s).wu = s.wu ∧
    (nodeRead e s).mem = s.mem ∧ (nodeRead e s).copyA = s.copyA ∧ (nodeRead e s).copyB = s.copyB ∧
    (nodeRead e s).freeCount = s.freeCount := by
  unfold nodeRead; (repeat' split) <;> simp

@[simp] theorem placeIn_frame (u : CmdUnit) (e : Entry) (s : State) :
    (placeIn u e s).pending = s.pending ∧ (placeIn u e s).pc = s.pc ∧
    (placeIn u e s).mem = s.mem ∧ (placeIn u e s).copyA = s.copyA ∧ (placeIn u e s).copyB = s.copyB ∧
    (placeIn u e s).freeCount = s.freeCount := by
  unfold placeIn; split <;> simp

@[simp] theorem closeTx_frame (s : State) :
    (closeTx s).pending = s.pending ∧ (closeTx s).pc = s.pc ∧ (closeTx s).js = s.js ∧ (closeTx s).au = s.au ∧
    (closeTx s).tb = s.tb ∧ (closeTx s).wu = s.wu ∧ (closeTx s).cp = s.cp ∧ (closeTx s).mem = s.mem ∧
    (closeTx s).copyA = s.copyA ∧ (closeTx s).copyB = s.copyB ∧ (closeTx s).freeCount = s.freeCount := by
  simp [closeTx]

@[simp] theorem setCs_frame (low : Bool) (s : State) :
    (setCs low s).pending = s.pending ∧ (setCs low s).js = s.js ∧ (setCs low s).au = s.au ∧
    (setCs low s).tb = s.tb ∧ (setCs low s).cu = s.cu ∧ (setCs low s).wu = s.wu ∧
    (setCs low s).cp = s.cp ∧ (setCs low s).hp = s.hp ∧ (setCs low s).mem = s.mem ∧
    (setCs low s).copyA = s.copyA ∧ (setCs low s).copyB = s.copyB ∧ (setCs low s).freeCount = s.freeCount := by
  simp [setCs]

@[simp] theorem openPort_frame (p : TxPort) (s : State) :
    (openPort p s).pending = s.pending ∧ (openPort p s).js = s.js ∧ (openPort p s).au = s.au ∧
    (openPort p s).tb = s.tb ∧ (openPort p s).wu = s.wu ∧ (openPort p s).cp = s.cp ∧
    (openPort p s).mem = s.mem ∧ (openPort p s).copyA = s.copyA ∧ (openPort p s).copyB = s.copyB ∧
    (openPort p s).freeCount = s.freeCount := by
  simp [openPort]

@[simp] theorem takeBytes_frame (p : Port) (bytes : List Byte) (s : State) :
    (takeBytes p bytes s).pending = s.pending ∧ (takeBytes p bytes s).pc = s.pc ∧ (takeBytes p bytes s).js = s.js ∧
    (takeBytes p bytes s).au = s.au ∧ (takeBytes p bytes s).tb = s.tb ∧ (takeBytes p bytes s).cu = s.cu ∧
    (takeBytes p bytes s).wu = s.wu ∧ (takeBytes p bytes s).cp = s.cp ∧ (takeBytes p bytes s).mem = s.mem ∧
    (takeBytes p bytes s).copyA = s.copyA ∧ (takeBytes p bytes s).copyB = s.copyB ∧ (takeBytes p bytes s).freeCount = s.freeCount := by
  simp [takeBytes]

@[simp] theorem rise_frame (f : Hp → Hp) (s : State) :
    (rise f s).pending = s.pending ∧ (rise f s).js = s.js ∧ (rise f s).au = s.au ∧
    (rise f s).tb = s.tb ∧ (rise f s).wu = s.wu ∧ (rise f s).cp = s.cp ∧
    (rise f s).mem = s.mem ∧ (rise f s).copyA = s.copyA ∧ (rise f s).copyB = s.copyB ∧
    (rise f s).freeCount = s.freeCount := by
  unfold rise onBus; split <;> simp

@[simp] theorem finish_frame (p : Port) (bytes : List Byte) (s : State) :
    (finish p bytes s).pending = s.pending ∧ (finish p bytes s).js = s.js ∧ (finish p bytes s).au = s.au ∧
    (finish p bytes s).tb = s.tb ∧ (finish p bytes s).wu = s.wu ∧ (finish p bytes s).cp = s.cp ∧
    (finish p bytes s).mem = s.mem ∧ (finish p bytes s).copyA = s.copyA ∧ (finish p bytes s).copyB = s.copyB ∧
    (finish p bytes s).freeCount = s.freeCount := by
  unfold finish onBus; dsimp only; split <;> simp

@[simp] theorem recover_frame (s : State) :
    (recover s).pending = s.pending ∧ (recover s).copyA = s.copyA ∧ (recover s).copyB = s.copyB ∧
    (recover s).freeCount = s.freeCount := by
  unfold recover; dsimp only; refine ⟨?_, ?_, ?_, ?_⟩ <;> (repeat' split) <;> simp

@[simp] theorem tearRecord_frame (n : Nat) (s : State) :
    (tearRecord n s).pending = s.pending ∧ (tearRecord n s).pc = s.pc ∧ (tearRecord n s).js = s.js ∧
    (tearRecord n s).au = s.au ∧ (tearRecord n s).tb = s.tb ∧ (tearRecord n s).cu = s.cu ∧
    (tearRecord n s).wu = s.wu ∧ (tearRecord n s).cp = s.cp ∧ (tearRecord n s).hp = s.hp ∧
    (tearRecord n s).copyA = s.copyA ∧ (tearRecord n s).copyB = s.copyB ∧ (tearRecord n s).freeCount = s.freeCount := by
  unfold tearRecord; (repeat' split) <;> simp

@[simp] theorem tearClearing_frame (cut : Cut) (s : State) :
    (tearClearing cut s).pending = s.pending ∧ (tearClearing cut s).pc = s.pc ∧ (tearClearing cut s).au = s.au ∧
    (tearClearing cut s).tb = s.tb ∧ (tearClearing cut s).cu = s.cu ∧ (tearClearing cut s).wu = s.wu ∧
    (tearClearing cut s).cp = s.cp ∧ (tearClearing cut s).hp = s.hp ∧ (tearClearing cut s).copyA = s.copyA ∧
    (tearClearing cut s).copyB = s.copyB ∧ (tearClearing cut s).freeCount = s.freeCount := by
  unfold tearClearing; dsimp only; refine ⟨?_, ?_, ?_, ?_, ?_, ?_, ?_, ?_, ?_, ?_, ?_⟩ <;> (repeat' split) <;> simp

@[simp] theorem tearCopy_frame (how : CopyCut) (s : State) :
    (tearCopy how s).pending = s.pending ∧ (tearCopy how s).pc = s.pc ∧ (tearCopy how s).js = s.js ∧
    (tearCopy how s).au = s.au ∧ (tearCopy how s).tb = s.tb ∧ (tearCopy how s).cu = s.cu ∧
    (tearCopy how s).wu = s.wu ∧ (tearCopy how s).cp = s.cp ∧ (tearCopy how s).hp = s.hp ∧
    (tearCopy how s).mem = s.mem ∧ (tearCopy how s).freeCount = s.freeCount := by
  unfold tearCopy; (repeat' split) <;> simp

@[simp] theorem tearRepairs_frame (n : Nat) (s : State) :
    (tearRepairs n s).pending = s.pending ∧ (tearRepairs n s).pc = s.pc ∧ (tearRepairs n s).js = s.js ∧
    (tearRepairs n s).au = s.au ∧ (tearRepairs n s).tb = s.tb ∧ (tearRepairs n s).cu = s.cu ∧
    (tearRepairs n s).wu = s.wu ∧ (tearRepairs n s).cp = s.cp ∧ (tearRepairs n s).hp = s.hp ∧
    (tearRepairs n s).copyA = s.copyA ∧ (tearRepairs n s).copyB = s.copyB ∧
    (tearRepairs n s).freeCount = s.freeCount := by
  unfold tearRepairs; split <;> simp

@[simp] theorem tear_frame (cut : Cut) (s : State) :
    (tear cut s).pending = s.pending ∧ (tear cut s).pc = s.pc ∧ (tear cut s).au = s.au ∧ (tear cut s).tb = s.tb ∧
    (tear cut s).cu = s.cu ∧ (tear cut s).wu = s.wu ∧ (tear cut s).cp = s.cp ∧ (tear cut s).hp = s.hp ∧
    (tear cut s).freeCount = s.freeCount := by
  simp [tear]

@[simp] theorem mainLost_frame (s : State) :
    (mainLost s).pending = s.pending ∧ (mainLost s).mem = s.mem ∧ (mainLost s).copyA = s.copyA ∧
    (mainLost s).copyB = s.copyB ∧ (mainLost s).freeCount = s.freeCount := by
  simp [mainLost]

@[simp] theorem enterOff_frame (s : State) :
    (enterOff s).pending = s.pending ∧ (enterOff s).js = s.js ∧ (enterOff s).au = s.au ∧ (enterOff s).cu = s.cu ∧
    (enterOff s).wu = s.wu ∧ (enterOff s).cp = s.cp := by
  simp [enterOff]

@[simp] theorem enterUnpowered_frame (s : State) :
    (enterUnpowered s).pending = s.pending ∧ (enterUnpowered s).js = s.js ∧ (enterUnpowered s).au = s.au ∧
    (enterUnpowered s).cu = s.cu ∧ (enterUnpowered s).wu = s.wu ∧ (enterUnpowered s).cp = s.cp := by
  unfold enterUnpowered; split <;> simp

@[simp] theorem stopMain_frame (cut : Cut) (s : State) :
    (stopMain cut s).pending = s.pending ∧ (stopMain cut s).freeCount = s.freeCount := by
  unfold stopMain; split <;> simp

@[simp] theorem formatReached_frame (n : Nat) (s : State) :
    (formatReached n s).pending = s.pending ∧ (formatReached n s).pc = s.pc ∧ (formatReached n s).tb = s.tb ∧
    (formatReached n s).wu = s.wu ∧ (formatReached n s).copyA = s.copyA ∧ (formatReached n s).copyB = s.copyB ∧
    (formatReached n s).freeCount = s.freeCount := by
  unfold formatReached; (repeat' split) <;> simp

@[simp] theorem beginCold_frame (s : State) :
    (beginCold s).pending = s.pending ∧ (beginCold s).cu = s.cu ∧ (beginCold s).wu = s.wu ∧
    (beginCold s).hp = s.hp ∧ (beginCold s).mem = s.mem ∧ (beginCold s).copyA = s.copyA ∧
    (beginCold s).copyB = s.copyB ∧ (beginCold s).freeCount = s.freeCount := by
  simp [beginCold]

@[simp] theorem beginRecovery_frame (s : State) :
    (beginRecovery s).pending = s.pending ∧ (beginRecovery s).cu = s.cu ∧ (beginRecovery s).wu = s.wu ∧
    (beginRecovery s).mem = s.mem ∧ (beginRecovery s).copyA = s.copyA ∧ (beginRecovery s).copyB = s.copyB ∧
    (beginRecovery s).freeCount = s.freeCount := by
  unfold beginRecovery; split <;> simp

@[simp] theorem coldStart_frame (s : State) :
    (coldStart s).pending = s.pending ∧ (coldStart s).pc = s.pc ∧ (coldStart s).mem = s.mem ∧
    (coldStart s).copyA = s.copyA ∧ (coldStart s).copyB = s.copyB ∧ (coldStart s).freeCount = s.freeCount := by
  simp [coldStart]

@[simp] theorem holdupEnd_frame (s : State) :
    (holdupEnd s).pending = s.pending := by
  unfold holdupEnd; split <;> simp

end Sys2Proof.Machine
end

