-- ==== Sys2Proof/Laws/Reports.lean ====
section
/-! SUPPORT. Preparation and the CU's hold floor reports neither read nor write the HP, nor the CU's cursors, nor a slot
without a scan in flight, but for the floor itself: those parts can be set before or after. -/

namespace Sys2Proof.Machine

/-- The state with this HP, these cursors and this slot in its CU. -/
def State.setSeen (h : Hp) (v : Vector Cursor 4) (x : Option CuSlot) (s : State) : State :=
  { s with hp := h, cu := { s.cu with cursors := v, slot := x } }

variable (h : Hp) (v : Vector Cursor 4) (x : Option CuSlot) (s : State)

/-- No scan is in flight in this slot. -/
def atRest (x : Option CuSlot) : Prop := ∀ g : Seg, x.map (CuSlot.leave g) = x

theorem atRest_none : atRest none := fun _ => rfl

theorem atRest_dispatched (e : Entry) : atRest (some { entry := e, scan := none }) := fun _ => rfl

theorem requestCopy_setSeen : requestCopy (s.setSeen h v x) = (requestCopy s).setSeen h v x := by
  unfold requestCopy startCopy startCopyTo State.setSeen
  dsimp only
  split <;> rfl

/-- Reclamation up to its control block write. -/
def beforeCopy (s : State) : State :=
  (s.onJs Js.dropHead).onCu (fun u =>
    { u with reclaims := u.reclaims ++ [reclaimNotice s], slot := u.slot.map (CuSlot.leave s.js.head) })

theorem reclaim_eq : reclaim s = startClearing s.js.head (requestCopy (beforeCopy s)) := rfl

theorem reclaimNotice_setSeen : reclaimNotice (s.setSeen h v x) = reclaimNotice s := rfl

theorem beforeCopy_setSeen (hx : atRest x) : beforeCopy (s.setSeen h v x) = (beforeCopy s).setSeen h v x := by
  have e : (s.setSeen h v x).onJs Js.dropHead = (s.onJs Js.dropHead).setSeen h v x := rfl
  unfold beforeCopy
  rw [e, reclaimNotice_setSeen]
  have hs : x.map (CuSlot.leave s.js.head) = x := hx _
  simp [State.setSeen, State.onCu, State.onJs, hs]

theorem reclaim_setSeen (hx : atRest x) : reclaim (s.setSeen h v x) = (reclaim s).setSeen h v x := by
  rw [reclaim_eq, beforeCopy_setSeen h v x s hx, requestCopy_setSeen, reclaim_eq]
  rfl

theorem prepare_setSeen (hx : atRest x) : prepare (s.setSeen h v x) = (prepare s).setSeen h v x := by
  have hr := reclaim_setSeen h v x s hx
  have e1 : ((s.setSeen h v x).js.index[(s.setSeen h v x).js.next]).state = (s.js.index[s.js.next]).state := rfl
  have e2 : nextHeld (s.setSeen h v x) = nextHeld s := rfl
  have e3 : (s.setSeen h v x).js.policy = s.js.policy := rfl
  unfold prepare
  rw [e1, e2, e3, hr]
  cases (s.js.index[s.js.next]).state <;> try rfl
  cases s.js.policy <;> try rfl
  cases nextHeld s <;> rfl

theorem takeFloor_setSeen (hx : atRest x) (f : Option Nat) : takeFloor f (s.setSeen h v x) = (takeFloor f s).setSeen h v x := by
  have hp := prepare_setSeen h v x (s.onJs (fun j => { j with holdFloor := f })) hx
  unfold takeFloor
  dsimp only
  have e : (s.setSeen h v x).onJs (fun j => { j with holdFloor := f })
      = (s.onJs (fun j => { j with holdFloor := f })).setSeen h v x := rfl
  rw [e, hp]
  change (if s.js.journal = .ready then _ else _) = State.setSeen h v x (if s.js.journal = .ready then _ else _)
  split <;> rfl

/-- HP, cursors and slot can be set after a report, when the cursors set have the hold floor of those before. -/
theorem reportFloor_setSeen (hx : atRest x) (old : Option Nat) (hf : (s.setSeen h v x).cu.floor = s.cu.floor) :
    reportFloor old (s.setSeen h v x) = (reportFloor old s).setSeen h v x := by
  have ht := takeFloor_setSeen h v x (s.onJs (fun j => { j with floorReports := [] })) hx s.cu.floor
  unfold reportFloor
  dsimp only
  rw [hf]
  have e : (s.setSeen h v x).onJs (fun j => { j with floorReports := [] })
      = (s.onJs (fun j => { j with floorReports := [] })).setSeen h v x := rfl
  rw [e, ht]
  split
  · rfl
  · split <;> rfl

/-- A happening that leaves the hold floor reports nothing. -/
theorem reportFloor_same (old : Option Nat) (hf : s.cu.floor = old) : reportFloor old s = s := by
  simp [reportFloor, hf]

/-- A report keeps the CU's cursors, a slot without a scan in flight, and the HP. -/
theorem reportFloor_keeps (hx : atRest s.cu.slot) (old : Option Nat) :
    (reportFloor old s).cu.cursors = s.cu.cursors ∧ (reportFloor old s).cu.slot = s.cu.slot ∧
      (reportFloor old s).hp = s.hp := by
  have h1 := reportFloor_setSeen s.hp s.cu.cursors s.cu.slot s hx old rfl
  have e1 : s.setSeen s.hp s.cu.cursors s.cu.slot = s := rfl
  rw [e1] at h1
  exact ⟨congrArg (·.cu.cursors) h1, congrArg (·.cu.slot) h1, congrArg (·.hp) h1⟩

theorem foldl_set_holds (l : List Cursor) (i : Nat) (z y : Cursor) (o : Option Nat) (hz : l[i]? = some z)
    (hy : y.holds = z.holds) (hp : y.holds = true → y.position = z.position) :
    (l.set i y).foldl (fun o c => if c.holds then lowest o c.position else o) o
      = l.foldl (fun o c => if c.holds then lowest o c.position else o) o := by
  induction l generalizing i o with
  | nil => rfl
  | cons a l ih =>
    cases i with
    | zero =>
      simp only [List.getElem?_cons_zero, Option.some.injEq] at hz
      subst hz
      simp only [List.set_cons_zero, List.foldl_cons, hy]
      split
      · rename_i hh; rw [hp (hy.trans hh)]
      · rfl
    | succ i =>
      simp only [List.getElem?_cons_succ] at hz
      simp only [List.set_cons_succ, List.foldl_cons]
      exact ih i _ hz

/-- The hold floor changes only with what a cursor holds. -/
theorem floor_set (u : Cu) (c : Fin 4) (y : Cursor) (hy : y.holds = (u.cursors[c]).holds)
    (hp : y.holds = true → y.position = (u.cursors[c]).position) :
    ({ u with cursors := u.cursors.set c y } : Cu).floor = u.floor := by
  unfold Cu.floor
  simp only [Vector.toList_set]
  exact foldl_set_holds _ _ u.cursors[c] _ _ (by simp) hy hp

end Sys2Proof.Machine
end

