-- ==== Sys2Proof/WellFormed.lean ====
section
/-! DEFINITION. Which commands are well formed: the operand bounds that the spec gives. -/

namespace Sys2Proof

/-- The six port bytes: CMD, RSP, WIN, STS, ACK, MASK (R159). -/
def definedPorts : List Byte := [0x10, 0x20, 0x30, 0x40, 0x50, 0x51]

/-- A clearing zeroes the 256 units of one segment (R27), so at most 256 have been zeroed. -/
def zeroedOk (n : Nat) : Bool := n ≤ 256

/-- FORMAT's third phase can be stopped after any of its steps 4 to 9, or before step 4 (R181). -/
def madeOk (n : Nat) : Bool := n ≤ 6

/-- The operand bounds of a command. -/
def Instr.wf : Instr → Bool
  | .unknownPort p => !(definedPorts.contains p)
  | .auStopped z => zeroedOk z
  | .auEnded z => zeroedOk z
  | .resetAssert c => zeroedOk c.zeroed
  | .vmainLost c => zeroedOk c.zeroed
  | .holdup (.falls made) => madeOk made
  | .append | .format | .setPolicy | .journalStatus | .segmentInfo | .openCursor | .seek | .seekTime | .fetch
  | .count | .cancel | .close | .cursorStatus | .readTime | .setTime | .adjustTime | .watchSet | .watchRead
  | .watchOff | .captureSet | .nodeSet | .nodeRead | .dispatch | .statusByte | .cmd _ | .rsp | .rspPop _
  | .win _ _ | .winEnd | .sts | .ack _ | .mask _ | .arbiterChoice | .nextSegmentRequest | .writeStepEnd
  | .holdFloorReport | .clearingEnd | .controlBlockWriteEnd | .secondBoundary | .decisionPoint | .boundaryEvent
  | .wuCommitNotice | .cuCommitNotice | .reclaimNotice | .followTimeout _ | .scanStep | .tailTest
  | .characterReceived _ _ | .gapTimeout | .idleTimeElapsed | .acknowledgeWindowEnd _ | .ackFrameStart
  | .ackFrameEnd | .cpCommitNotice | .refusalNotice | .holdup .rises | .resetRelease | .vmainRise | .vbatFall
  | .vbatRise | .retentionLatchExamine | .recoveryScanEnd => true

end Sys2Proof
end

