-- ==== Sys2Proof/Tests/Slice0.lean ====
section
/-! SUPPORT. Tests. Expected values come from the spec's worked examples and tables, or from hand calculation by the rule
named; `witness_<Statement>` shows concrete states that meet the hypotheses of the statement of that name. -/

namespace Sys2Proof.Tests

set_option Elab.async false

open Sys2Proof.Machine

/-! ## Small states -/

/-- A J64 in RUN with an empty journal: segment 0 FILLING with no record, the others PREPARED, next number 501, the Time
Base SET at 1,000:16,384 (the example of chapter 1). -/
def run : State :=
  { State.reset with
    pc := { Pc.start with supply := .run, latch := false }
    js := { Js.start with
      journal := .ready, used := 1
      index := (Vector.replicate 64 (IndexEntry.empty .prepared)).set 0 (IndexEntry.empty .filling) }
    au := { Au.start with nextSeq := .value 501 }
    tb := Tb.atStart 1000 16384 true 0
    hp := { Hp.start with offline := false }
    mem := Memory.writeCells [] (headerCells 0 .filling 0) }

/-- The next state of a command. -/
def got (i : Instr) (s : State) : State := match exec i s with
  | .next t => t
  | .fault _ => s
  | .refused _ => s

/-- The next state of a step. -/
def stepped (s : State) : State := match step s with
  | .next t => t
  | .fault _ => s
  | .refused _ => s

/-- A command entry with tag 7. -/
def cmd (opcode : Byte) (params payload : List Byte) : Entry :=
  { opcode := opcode, tag := 7, params := params, payload := payload }

/-- The five payload bytes of the example of chapter 1. -/
def sample : List Byte := [0x12, 0x34, 0x00, 0x7F, 0x01]

/-- The state with a command dispatched to the TB. -/
def inTb (e : Entry) (s : State) : State := { s with tb := { s.tb with slot := some { entry := e, old := none } } }
/-- The state with a command dispatched to the WU. -/
def inWu (e : Entry) (s : State) : State := { s with wu := { s.wu with slot := some e } }
/-- The state with a command dispatched to the JS. -/
def inJs (e : Entry) (s : State) : State := { s with js := { s.js with slot := some { entry := e, phase := .dispatched } } }
/-- The state with a command dispatched to the CU. -/
def inCu (e : Entry) (s : State) : State := { s with cu := { s.cu with slot := some { entry := e, scan := none } } }
/-- The state with a command dispatched to the CP. -/
def inCp (e : Entry) (s : State) : State := { s with cp := { s.cp with slot := some { entry := e, phase := .dispatched } } }
/-- The state with an APPEND waiting in the host lane. -/
def inLane (e : Entry) (s : State) : State :=
  { s with au := { s.au with hostLane := s.au.hostLane ++ [{ entry := e, state := .waiting }] } }

/-- A descriptor that selects every HOST record. -/
def hostDesc : Descriptor :=
  { sources := 1, classes := 0xFFFF, nodes := 0, key := 0, care := 0, timeFrom := none, timeTo := none }

/-- The same descriptor as 22 payload bytes. -/
def hostDescBytes : List Byte := [1, 0xFF, 0xFF] ++ List.replicate 19 0

/-- The host record of chapter 1, in its write step. -/
def writing : State := got .arbiterChoice (inLane (cmd 0x11 [3, 0, 0, 0, 0, 0] sample) run)

/-- The host record of chapter 1, committed as 501 at unit 1 of segment 0. -/
def one : State := got .writeStepEnd writing

/-- A READY forward cursor at position `p` that selects every HOST record. -/
def forwardAt (p : Nat) : Cursor := { Cursor.start with state := .ready, desc := hostDesc, position := p, budget := 40 }

/-- The state with this cursor 0. -/
def withCursor0 (x : Cursor) (s : State) : State := { s with cu := { s.cu with cursors := s.cu.cursors.set 0 x } }

/-- The state with this watch `n`. -/
def withWatch (n : Fin 8) (w : Watch) (s : State) : State :=
  { s with wu := { s.wu with watches := s.wu.watches.set n w } }

/-- The responses in the queue, as result code and field bytes. -/
def answers (s : State) : List (Byte × List Byte) := s.hp.responses.map (fun r => (byte r.result.code, r.fields))

/-! ## Well-formedness: each check refuses an ill-formed command -/

theorem test_wf_refuses_defined_port : (Instr.unknownPort 0x10).wf = false := by decide
theorem test_wf_refuses_au_stopped : (Instr.auStopped 257).wf = false := by decide
theorem test_wf_refuses_au_ended : (Instr.auEnded 257).wf = false := by decide
theorem test_wf_refuses_reset_cut :
    (Instr.resetAssert { record := 0, zeroed := 257, copy := .torn, repairs := 0 }).wf = false := by decide
theorem test_wf_refuses_vmain_cut :
    (Instr.vmainLost { record := 0, zeroed := 257, copy := .torn, repairs := 0 }).wf = false := by decide
theorem test_wf_refuses_holdup : (Instr.holdup (.falls 7)).wf = false := by decide
theorem test_wf_accepts_bounds : (Instr.auStopped 256).wf = true ∧ (Instr.unknownPort 0x11).wf = true := by decide

/-! ## Formats (chapter 10) -/

/-- The CRC-8 of the probe example runs 09h, 38h, A8h (10.4). -/
theorem test_crc8_probe : crc8 [0x03] = 0x09 ∧ crc8 [0x03, 0x01] = 0x38 ∧ crc8 [0x03, 0x01, 0x00] = 0xA8 := by
  decide +kernel

/-- The CRC-8 of five zero bytes is 00h (R19). -/
theorem test_cleared_header : segHeader .free 0 = List.replicate 8 0x00 := by decide +kernel

/-- The CRC-16 of an empty payload is FFFFh (R4); of the bytes "123456789" it is 29B1h, the published value for this
polynomial and initial value. -/
theorem test_crc16 : crc16 [] = 0xFFFF ∧ crc16 [0x31, 0x32, 0x33, 0x34, 0x35, 0x36, 0x37, 0x38, 0x39] = 0x29B1 := by
  decide +kernel

/-- The acknowledge of the probe example (10.4). -/
theorem test_ack_frame : frameBytes 3 1 [] none = [0x6A, 0x03, 0x01, 0x00, 0x00, 0x00, 0xE0] := by decide +kernel

/-- Sizes of R1 and keys of R8. -/
theorem test_size_and_key : sizeUnits 0 = 3 ∧ sizeUnits 8 = 4 ∧ sizeUnits 9 = 5 ∧ sizeUnits 232 = 32 ∧
    keyOf [] = 0 ∧ keyOf [0x5A] = 0x5A00 ∧ keyOf sample = 0x1234 := by decide

/-- The capture stamp of the example of chapter 1: 1,000:100 less 500 ticks is 999:32,368. -/
theorem test_capture_stamp : Stamp.lessAge { seconds := 1000, ticks := 100 } 500 = { seconds := 999, ticks := 32368 } := by
  decide

/-- The example of 5.2: code 02h with care mask FF00h selects RECOVERED records alone. -/
theorem test_match_recovered :
    let d : Descriptor :=
      { sources := 4, classes := 0x1000, nodes := 0, key := 0x0200, care := 0xFF00, timeFrom := none, timeTo := none }
    let t : Stamp := { seconds := 0, ticks := 0 }
    d.accepts 2 12 255 0x0101 t = false ∧ d.accepts 0 3 255 0x0200 t = false ∧ d.accepts 2 12 255 0x0300 t = false ∧
      d.accepts 2 12 255 0x0201 t = true ∧ d.accepts 2 12 255 0x0202 t = true ∧ d.accepts 2 13 255 0x0100 t = false := by
  decide

/-- The example of 5.3: segments 7 and 10 are read, the others pruned. -/
theorem test_pruning :
    let d : Descriptor :=
      { sources := 3, classes := 0x18, nodes := 4, key := 0, care := 0, timeFrom := some { seconds := 1000, ticks := 0 }
        timeTo := none }
    let e (count : Nat) (sources : BitVec 3) (classes : BitVec 16) (nodes : BitVec 8) (lo hi : Stamp) : IndexEntry :=
      { IndexEntry.empty .sealed with
        count := count, sources := sources, classes := classes, nodes := nodes, minStamp := some lo, maxStamp := some hi }
    let at_ (s k : Nat) : Stamp := { seconds := s, ticks := k }
    d.canHold (e 40 1 0x6 0 (at_ 900 0) (at_ 960 0)) = false ∧
      d.canHold (e 85 2 0x10 3 (at_ 960 0) (at_ 1200 0)) = false ∧
      d.canHold (e 60 6 0x2010 1 (at_ 1100 0) (at_ 1300 0)) = true ∧
      d.canHold (IndexEntry.empty .sealed) = false ∧
      d.canHold (e 70 1 0x8 0 (at_ 950 0) (at_ 999 20000)) = false ∧
      d.canHold (e 12 3 0x88 4 (at_ 998 0) (at_ 1050 0)) = true := by decide

/-- R81: ticks of a present bound above 32,767, a flag of 2, and a source bit above the three each fail. -/
theorem test_descriptor_refused :
    parseDescriptor ([1, 0, 0, 0, 0, 0, 0, 0, 1, 0, 0, 0, 0, 0x80, 0x00] ++ List.replicate 7 0) = none ∧
      parseDescriptor ([1, 0, 0, 0, 0, 0, 0, 0, 2] ++ List.replicate 13 0) = none ∧
      parseDescriptor (8 :: List.replicate 21 0) = none ∧ parseDescriptor hostDescBytes = some hostDesc := by
  decide +kernel

/-! ## The block -/

theorem witness_StepRunsFrontCommand :
    ({ run with pending := [.winEnd] }).pending = .winEnd :: [] ∧ run.pending = [] := by decide +kernel

theorem witness_MemoryStaysCanonical : one.mem.wf = true ∧ step one = .next (stepped one) := ⟨by decide +kernel, rfl⟩

/-- A sound TB at the last tick of a lengthened second, with every field at the end of its range. -/
def edgeTb : Tb :=
  { Tb.atStart 4294967295 32767 true 31 with
    staged := some 4294967295, adjustment := -32767, slew := .lengthen 16, heldTicks := 16 }

theorem witness_TimeLawKept :
    timeLaw edgeTb ∧ step { run with tb := edgeTb } = .next (stepped { run with tb := edgeTb }) := by
  exact ⟨⟨by decide, by decide, by decide,
    ⟨⟨by decide, by decide, (by decide : (16 : Nat) ≤ 16)⟩, fun _ => rfl⟩, (by decide : (4294967295 : Nat) < 4294967296)⟩, rfl⟩

/-- An HP with 8 commands outstanding, two of them in the host lane and six answered, and a full system lane. -/
def crowded : State :=
  { run with
    hp := { run.hp with
      outstanding := 8, tags := [0, 1, 2, 3, 4, 5, 6, 0xFE]
      responses := (List.range 6).map (fun n => Response.plain (byte n) .done []) }
    au := { run.au with
      hostLane := [6, 0xFE].map (fun tag => { entry := { cmd 0x11 [0] [] with tag := tag }, state := .waiting })
      systemLane := List.replicate 4 (SysRequest.make .silent 0 (be32 0)) } }

theorem witness_QueueLawsKept :
    (hostLaw crowded.hp ∧ laneLaw crowded.au) ∧ onlineLaw crowded ∧ outstandingLaw crowded ∧
      step crowded = .next (stepped crowded) := by
  refine ⟨?_, ?_, ⟨?_, ?_, ?_, ?_⟩, rfl⟩
  · unfold hostLaw laneLaw; decide +kernel
  · unfold onlineLaw; decide +kernel
  · decide +kernel
  · intro h; exact absurd rfl h
  · intro h; exact absurd rfl h
  · intro r _ h; exact absurd h (by simp [crowded, run, Au.start])

theorem witness_TagsStayUnique :
    onlineLaw crowded ∧ hostLaw crowded.hp ∧ outstandingLaw crowded ∧ tagLaw crowded ∧
      step crowded = .next (stepped crowded) :=
  ⟨witness_QueueLawsKept.2.1, witness_QueueLawsKept.1.1, witness_QueueLawsKept.2.2.1,
    ⟨fun _ => by decide +kernel, fun r _ h => absurd h (by simp [crowded, run, Au.start])⟩, rfl⟩

/-- RECOVERED's write step, with its end at the front of the queue. -/
def recovering : State :=
  got .arbiterChoice { run with
    pending := [.writeStepEnd], pc := { run.pc with supply := .recover }, js := { run.js with journal := .notReady }
    hp := Hp.start, au := { run.au with systemLane := [SysRequest.make .recovered 2 [0, 0, 0, 0, 0]] } }

/-- COLD_START's write step, with its end at the front of the queue; `low` says that PFI is low. -/
def coldStarting (low : Bool) : State :=
  got .arbiterChoice { run with
    pending := [.writeStepEnd], pc := { run.pc with supply := .coldInit, latch := true, pfiLow := low }
    js := { run.js with journal := .notReady }
    hp := Hp.start, au := { run.au with systemLane := [SysRequest.make .coldStart 1 []] } }

theorem witness_RunIsOnlineAndEntered :
    (onlineLaw run ∧ step run = .next (stepped run)) ∧
    (recovering.pc.supply ≠ .run ∧ step recovering = .next (stepped recovering) ∧ (stepped recovering).pc.supply = .run) ∧
    (∀ low, (coldStarting low).pc.latch = true ∧ step (coldStarting low) = .next (stepped (coldStarting low)) ∧
      (stepped (coldStarting low)).pc.latch = false) :=
  ⟨⟨by unfold onlineLaw; decide +kernel, rfl⟩, ⟨by decide +kernel, rfl, by decide +kernel⟩,
    fun low => ⟨by revert low; decide +kernel, rfl, by revert low; decide +kernel⟩⟩

theorem witness_PostingSetsRspFlag :
    run.hp.offline = false ∧ Hp.start.offline = true ∧ run.pc.supply.powered = true ∧
      (∃ h : Hp, ∃ r, h.responses = r :: [] ∧ h.mask.getLsbD 0 = true ∧ h.flags.getLsbD 0 = true) :=
  ⟨by decide +kernel, by decide, by decide +kernel,
    { run.hp with responses := [Response.plain 7 .done []], mask := 1 }, Response.plain 7 .done [], by decide +kernel⟩

/-! ## The Time Base -/

/-- READ_TIME at 1,000:16,384 SET with adjustment +8 (R77). -/
theorem test_read_time :
    answers (got .readTime (inTb (cmd 0x40 [] []) { run with tb := { run.tb with adjustment := 8 } })) =
      [(0x00, [0, 0, 0x03, 0xE8, 0x40, 0x00, 1, 0, 8])] := by decide +kernel

/-- SET_TIME stages its seconds and keeps the old reading (R71). -/
theorem test_set_time :
    (got .setTime (inTb (cmd 0x41 [0, 0, 0x04, 0x7E, 9, 9] []) run)).tb.staged = some 1150 := by decide +kernel

/-- ADJUST_TIME: FFECh is -20 (R199); 8000h is refused (R74). -/
theorem test_adjust_time :
    (got .adjustTime (inTb (cmd 0x42 [0xFF, 0xEC] []) run)).tb.adjustment = -20 ∧
      answers (got .adjustTime (inTb (cmd 0x42 [0x80, 0x00] []) run)) = [(0x14, [])] := by decide +kernel

/-- A SET_TIME to 1,150 that waits, taken at 1,200:20,000, one tick before its boundary (4.4). -/
def setBack : State :=
  { run with tb := { Tb.atStart 1200 32767 true 0 with
      staged := some 1150, adjustment := 9
      slot := some { entry := cmd 0x41 [0, 0, 0x04, 0x7E] [], old := some { seconds := 1200, ticks := 20000 } } } }

/-- The boundary of the worked sequence of 4.4. -/
theorem test_second_boundary_sets :
    (got .secondBoundary setBack).tb = Tb.atStart 1150 0 true 1 ∧
      (got .secondBoundary setBack).au.systemLane =
        [{ kind := .timeSet, payload := [1, 0, 0, 0, 0x04, 0xB0, 0x4E, 0x20, 0, 0, 0x04, 0x7E] }] := by decide +kernel

/-- The wrap of R67. -/
theorem test_second_boundary_wraps :
    (got .secondBoundary { run with tb := Tb.atStart 4294967295 32767 true 0 }).tb.seconds = 0 := by decide +kernel

/-- The decisions of the worked sequence of 4.5: +40 gives 16, 16, 8; -20 gives a lengthening of 16. -/
theorem test_decision_point :
    let decided (a : Int) := (got .decisionPoint { run with tb := { Tb.atStart 500 32750 true 0 with adjustment := a } }).tb
    (decided 40).slew = .shorten 16 ∧ (decided 40).adjustment = 24 ∧ (decided 8).slew = .shorten 8 ∧
      (decided 8).adjustment = 0 ∧ (decided (-20)).slew = .lengthen 16 ∧ (decided (-20)).adjustment = -4 := by decide +kernel

theorem witness_TimeCommandsAnswer :
    (∀ e, (inTb e run).tb.slot = some { entry := e, old := none }) ∧
    (∀ o ∈ [(0x40 : Byte), 0x41, 0x42], (cmd o [] []).opcode = o ∧ (cmd o [] []).payload = [] ∧ (cmd o [] [0]).payload ≠ []) ∧
    (∀ v : Fin 3, let x : Int := [-32768, -32767, 32767].getD v.val 0;
      let e := cmd 0x42 (be16 (x % 65536).toNat) []
      e.opcode = 0x42 ∧ e.payload = [] ∧ -32768 ≤ x ∧ x ≤ 32767 ∧ e.param16 0 = (x % 65536).toNat) ∧
    edgeTb.staged = some 4294967295 ∧ setBack.tb.slot ≠ none ∧
    ({ setBack with hp := { setBack.hp with commands := [cmd 0x42 [] []] } }).hp.commands = cmd 0x42 [] [] :: [] :=
  ⟨fun _ => rfl, by decide +kernel⟩

theorem witness_SecondBoundaryCountsOrSets :
    let plain : State := { run with tb := Tb.atStart 1000 32767 true 30 }
    (lastTick plain.tb ∧ plain.tb.beatPhase < 31 ∧ plain.tb.staged = none ∧ plain.pc.supply ≠ .off) ∧
    (∀ m : Fin 17, lastTick { plain.tb with slew := .shorten m.val, ticks := 32767 - m.val } ∧
      lastTick { plain.tb with slew := .lengthen m.val, heldTicks := m.val }) ∧
    lastTick setBack.tb ∧ setBack.tb.beatPhase < 31 ∧ setBack.tb.staged = some 1150 ∧
      setBack.tb.slot =
        some { entry := cmd 0x41 [0, 0, 0x04, 0x7E] [], old := some { seconds := 1200, ticks := 20000 } } ∧
      setBack.pc.supply = .run ∧ setBack.au.holdup = .idle ∧ setBack.au.systemLane.length < 4 := by
  refine ⟨⟨rfl, by decide +kernel⟩, fun m => ⟨rfl, rfl, rfl⟩, rfl, by decide +kernel⟩

theorem witness_DecisionPointSetsSecondLength :
    (let s : State := { run with tb := { Tb.atStart 500 32750 true 30 with adjustment := -32767 } };
      s.tb.ticks = 32750 ∧ s.pc.supply.powered = true ∧ s.tb.beatPhase < 31 ∧ s.tb.slew = .straight) ∧
    (∀ m : Fin 17, let t := { Tb.atStart 500 32751 true 0 with slew := Slew.shorten m.val };
      t.ticks = 32751 ∧ t.heldTicks = 0 ∧ t.slew = .shorten m.val) ∧
    (∀ m : Fin 17, let t := { Tb.atStart 500 32751 true 0 with slew := Slew.lengthen m.val };
      t.ticks = 32751 ∧ t.heldTicks = 0 ∧ t.slew = .lengthen m.val) ∧
    (Tb.atStart 500 32751 true 0).slew = .straight :=
  ⟨by decide +kernel, fun _ => ⟨rfl, rfl, rfl⟩, fun _ => ⟨rfl, rfl, rfl⟩, rfl⟩

theorem witness_BeatsCountWaitsDown :
    let beat : State := { run with tb := { run.tb with beatPhase := 31 } }
    run.pc.supply ≠ .off ∧ run.tb.beatPhase < 31 ∧ beat.tb.beatPhase = 31 ∧ beat.pc.supply.powered = true ∧
      ({ beat with pc := { beat.pc with supply := .retain } }).pc.supply.powered = false := by decide +kernel

/-! ## Match descriptors and the Watch Unit -/

/-- The descriptor that names both bounds, each at the end of its range. -/
def boundBytes : List Byte :=
  [7, 0xFF, 0xFF, 0xFF, 0, 0, 0, 0] ++ [1, 0, 0, 0, 0, 0x7F, 0xFF] ++ [1, 0, 0, 0, 0, 0x7F, 0xFF]

theorem witness_DescriptorsSelectRecords :
    (parseDescriptor boundBytes).isSome = true ∧
      hostDesc.accepts 0 11 255 0 { seconds := 0, ticks := 0 } = true ∧
      (hostDesc.canHold ((IndexEntry.empty .filling).add 1 { seconds := 0, ticks := 0 } 11 0 255 false)) = true := by
  decide +kernel

/-- Watch 3 of the worked sequence of 5.8, with `left` boundary events left of its silence of 10. -/
def watch3 (left : Nat) : Watch :=
  { Watch.start with
    armed := true, countOn := true, interruptOn := true, hits := 1, last := some 8001, period := 10, remaining := left
    desc := { hostDesc with sources := 2, classes := 0x10, nodes := 4 } }

/-- A commit notice of a capture record from node `k`, class 4. -/
def captured (seq k : Nat) : Notice :=
  { seq := seq, cls := 4, source := .capture, node := k, nodeSeq := 0, stamp := { seconds := 103, ticks := 9000 }
    unset := false, key := 0, len := 0, seg := 0, unit := 1 }

/-- The state with one commit notice on its way to the WU. -/
def noticed (c : Notice) (s : State) : State := { s with wu := { s.wu with notices := [c] } }

/-- WATCH_SET arms the watch afresh; watch 8 is refused (R94). -/
theorem test_watch_set :
    ((got .watchSet (inWu (cmd 0x50 [3, 3, 0, 10] hostDescBytes) run)).wu.watches[3]).remaining = 10 ∧
      answers (got .watchSet (inWu (cmd 0x50 [8, 3, 0, 10] hostDescBytes) run)) = [(0x14, [])] := by decide +kernel

/-- WATCH_READ of watch 3 with the clear option: COUNT, INTERRUPT, last-hit present, ARMED (R95, 10.3). -/
theorem test_watch_read :
    let t := got .watchRead (inWu (cmd 0x51 [3, 1] []) (withWatch 3 (watch3 7) run))
    answers t = [(0x00, [0x93, 0, 1, 0, 0, 0, 0, 0, 0, 0x1F, 0x41, 0, 7])] ∧ (t.wu.watches[3]).hits = 0 ∧
      (t.wu.watches[3]).remaining = 7 := by decide +kernel

/-- WATCH_OFF keeps the counts (R96). -/
theorem test_watch_off :
    let w := (got .watchOff (inWu (cmd 0x52 [3] []) (withWatch 3 (watch3 7) run))).wu.watches[3]
    w.armed = false ∧ w.remaining = 0 ∧ w.hits = 1 := by decide +kernel

/-- The silence of 5.8 runs out: SILENT with payload 8,001, and the SILENT event. -/
theorem test_boundary_event :
    let t := got .boundaryEvent { withWatch 3 (watch3 1) run with wu := { (withWatch 3 (watch3 1) run).wu with boundaries := 1 } }
    t.au.systemLane = [{ kind := .silent, payload := [1, 3, 0, 0, 0x1F, 0x41] }] ∧ (t.wu.watches[3]).silent = true ∧
      t.hp.events = 0x04 := by decide +kernel

/-- A hit restarts the silence and clears SILENT; node 1 is no hit; its own SILENT record is exempt (5.8, R89). -/
theorem test_wu_commit_notice :
    let s := withWatch 3 { watch3 0 with silent := true, desc := { hostDesc with sources := 7, nodes := 4 } } run
    let own : Notice := { captured 8050 255 with cls := 15, source := .system, key := 0x0103 }
    let after (c : Notice) := (got .wuCommitNotice (noticed c s)).wu.watches[3]
    (after (captured 8090 2)).remaining = 10 ∧ (after (captured 8090 2)).silent = false ∧
      (after (captured 8090 1)).hits = 1 ∧ (after own).silent = true ∧
      (after { own with key := 0x0102 }).silent = false := by decide +kernel

/-- Watch 3 of 5.8 with `remaining` of `period` seconds left; the hit of 8,090 and a boundary event wait together. -/
def meeting (remaining period : Nat) : State :=
  let s := withWatch 3 { watch3 remaining with period := period, desc := { hostDesc with sources := 7, nodes := 4 } } run
  noticed (captured 8090 2) { s with wu := { s.wu with boundaries := 1 } }

/-- Silence remaining, SILENT, and the SILENT records requested, after the two in the order given. -/
def met (commitFirst : Bool) (s : State) : Nat × Bool × Nat :=
  let t := if commitFirst then got .boundaryEvent (got .wuCommitNotice s) else got .wuCommitNotice (got .boundaryEvent s)
  ((t.wu.watches[3]).remaining, (t.wu.watches[3]).silent, t.au.systemLane.length)

/-- R93: above 1 both orders leave the period less one; at 1 the table's two rows, with a period of 1 too. -/
theorem test_meetings :
    met true (meeting 8 10) = (9, false, 0) ∧ met false (meeting 8 10) = (9, false, 0) ∧
      met true (meeting 1 10) = (9, false, 0) ∧ met false (meeting 1 10) = (10, false, 1) ∧
      met true (meeting 1 1) = (0, false, 0) ∧ met false (meeting 1 1) = (1, false, 1) := by decide +kernel

/-- R90, R91: a hit that meets no boundary event restarts the silence at the period. -/
theorem test_hit_alone :
    let t := got .boundaryEvent { (meeting 8 10) with wu := { (meeting 8 10).wu with notices := [] } }
    ((got .wuCommitNotice (noticed (captured 8090 2) t)).wu.watches[3]).remaining = 10 := by decide +kernel

theorem witness_WatchCommandsAnswer :
    (∀ e, (inWu e run).wu.slot = some e) ∧
    (∀ n : Fin 8, let e := cmd 0x50 [byte n.val, 7, 0xFF, 0xFF] hostDescBytes;
      e.opcode = 0x50 ∧ e.param 0 = n.val ∧ e.param 1 ≤ 7 ∧ e.payload.length = 22 ∧
        parseDescriptor e.payload = some hostDesc) ∧
    (7 < (cmd 0x50 [8] []).param 0 ∧ 7 < (cmd 0x50 [7, 8] []).param 1 ∧ (cmd 0x50 [7, 7] []).payload.length ≠ 22 ∧
      parseDescriptor (8 :: List.replicate 21 0) = none) ∧
    (∀ n : Fin 8, ∀ o : Fin 2, let e := cmd 0x51 [byte n.val, byte o.val] [];
      e.opcode = 0x51 ∧ e.param 0 = n.val ∧ e.payload = [] ∧ e.param 1 ≤ 1) ∧
    (7 < (cmd 0x51 [8] []).param 0 ∧ 1 < (cmd 0x51 [7, 2] []).param 1 ∧ (cmd 0x51 [7, 1] [0]).payload ≠ []) ∧
    (∀ n : Fin 8, let e := cmd 0x52 [byte n.val] []; e.opcode = 0x52 ∧ e.payload = [] ∧ e.param 0 = n.val) ∧
    7 < (cmd 0x52 [8] []).param 0 ∧ (cmd 0x52 [7] [0]).payload ≠ [] ∧ ({ watch3 0 with armed := false }).armed = false ∧
    ({ watch3 0 with armed := false }).remaining = 0 := ⟨fun _ => rfl, by decide +kernel⟩

/-- All eight watches armed with one boundary event left. -/
def lastCalls (n : Nat) : State :=
  { run with wu := { run.wu with
      boundaries := 1, watches := Vector.ofFn (fun i => if i.val < n then watch3 1 else watch3 2) } }

theorem witness_WatchesTakeCommitsAndBoundaries :
    (noticed (captured 8001 2) run).wu.notices = captured 8001 2 :: [] ∧
    0 < (lastCalls 4).wu.boundaries ∧ (lastCalls 4).au.holdup = .idle ∧
      (lastCalls 4).au.systemLane.length +
        ((fins 8).filter (fun n => ((lastCalls 4).wu.watches[n]).armed && ((lastCalls 4).wu.watches[n]).remaining == 1)).length
        = 4 ∧
    (∀ r ∈ [1, 2, 10], let s := meeting r 10;
      s.wu.notices = captured 8090 2 :: [] ∧ s.wu.boundaries = 1 ∧ (s.wu.watches[3]).hitBy 3 (captured 8090 2) = true ∧
        (s.wu.watches[3]).met = [] ∧ (s.wu.watches[3]).spared = false ∧ (s.wu.watches[3]).remaining = r ∧
        (s.wu.watches[3]).remaining ≤ (s.wu.watches[3]).period) := by decide +kernel

/-! ## The Journal Store -/

/-- `run` with the segment after the filling segment in state `st`. -/
def nextIs (st : SegState) : State :=
  { run with js := { run.js with index := run.js.index.set 1 (IndexEntry.empty st) } }

/-- The hold example of chapter 2 after the open of segment 18: every other segment SEALED, the head 19 holding 84
COMMITTED records from 40,001 on, segment 20 from 40,086 on. -/
def ring (floor : Option Nat) : State :=
  { run with
    js := { run.js with
      head := 19, filling := 18, used := 64, holdFloor := floor
      index := ((Vector.replicate 64 (IndexEntry.empty .sealed)).set 18 (IndexEntry.empty .filling)).set 19
        { IndexEntry.empty .sealed with count := 84 } }
    mem := Memory.writeCells []
      (headerCells 18 .filling 45300 ++ headerCells 19 .sealed 40001 ++ headerCells 20 .sealed 40086 ++
        [(unitAddr 18 1, 0xC3), (unitAddr 19 1, 0xC3), (unitAddr 20 1, 0xC3)]) }

/-- A floor of 40,050 holds segment 19; the report of 40,090 lets it be reclaimed (chapter 2, hold example). -/
theorem test_hold_floor_report :
    let t := got .holdFloorReport { ring (some 40050) with js := { (ring (some 40050)).js with floorReports := [some 40090] } }
    (prepare (ring (some 40050))).js.blocked = .held ∧ t.js.head = 20 ∧ t.js.used = 63 ∧ t.js.reclaimed = 84 ∧
      t.js.clearing = some 19 ∧ t.cu.reclaims = [{ seg := 19, oldHead := 40001, newHead := 40086, seenBy := [] }] := by
  decide +kernel

/-- A J64 whose copy B was written last with generation 701. -/
def wroteB : State := { run with js := { run.js with lastCopy := .b, lastGeneration := 701 } }

/-- The coalesced writes of chapter 2: the first write goes to A with 702, and the SET_POLICY made during it is carried by
the next, to B with 703. -/
theorem test_control_block_write_end :
    let t := got .controlBlockWriteEnd (got .setPolicy (inJs (cmd 0x21 [1, 56] []) (requestCopy wroteB)))
    t.copyA.generation = 702 ∧ t.copyA.policy = .wrap ∧
      t.js.copyWrite.map (fun w => (w.target, w.values.generation, w.values.policy)) = some (.b, 703, .stop) ∧
      answers t = [] ∧ answers (got .controlBlockWriteEnd t) = [(0x00, [])] := by decide +kernel

/-- A mark of 65 is refused (R39). -/
theorem test_set_policy_refused :
    answers (got .setPolicy (inJs (cmd 0x21 [0, 65] []) run)) = [(0x14, [])] := by decide +kernel

/-- JOURNAL_STATUS of `run`: READY, WRAP, mark 56, head 0, filling 0, used 1, next PREPARED (R40, 10.3). -/
theorem test_journal_status :
    answers (got .journalStatus (inJs (cmd 0x22 [] []) run)) = [(0x00, [1, 0, 56, 0, 0, 1, 2, 0, 0, 0, 0, 0, 0])] := by
  decide +kernel

/-- SEGMENT_INFO of segment 0 with record 501 in it: parts 0 and 1 (R41, 10.3). -/
theorem test_segment_info :
    answers (got .segmentInfo (inJs (cmd 0x23 [0, 0] []) { one with hp := run.hp })) =
        [(0x00, [3, 1, 3, 0, 0, 1, 0xF5, 0, 0, 1, 0xF5])] ∧
      answers (got .segmentInfo (inJs (cmd 0x23 [0, 1] []) { one with hp := run.hp })) =
        [(0x00, [0, 8, 1, 0, 0, 0, 0, 1, 0xF5])] := by decide +kernel

/-- FORMAT on an idle AU pauses the arbiter at once (R42); an options byte of 2 is refused (R199). -/
theorem test_format :
    (got .format (inJs (cmd 0x20 [1] []) run)).au.paused = true ∧
      answers (got .format (inJs (cmd 0x20 [2] []) run)) = [(0x14, [])] := by decide +kernel

/-- FORMAT with RENUMBER, stopped. -/
def stopping (s : State) : State := got .format (inJs (cmd 0x20 [1] []) s)

/-- FORMAT's second phase on a journal of one record (R43). -/
theorem test_au_stopped :
    let t := got (.auStopped 0) (stopping { one with hp := run.hp })
    t.js.journal = .formatting ∧ t.js.clearing = some 0 ∧ t.js.used = 0 ∧ t.js.slot.map JsSlot.phase = some (.formatClearing 1) := by
  decide +kernel

/-- FORMAT at the end of segment 63's clearing. -/
def lastClearing : State :=
  let t := got (.auStopped 0) (stopping run)
  { t with js := { t.js with
      clearing := some 63
      index := (Vector.replicate 64 (IndexEntry.empty .prepared)).set 63 (IndexEntry.empty .clearing) } }

/-- FORMAT's third phase under RENUMBER: FORMATTED in front, number 1 next, one used segment (R44). -/
theorem test_clearing_end_format :
    let t := got .clearingEnd lastClearing
    t.au.systemLane = [{ kind := .formatted, payload := [1, 1, 0, 0, 0, 0] }] ∧ t.au.nextSeq = .value 1 ∧ t.js.used = 1 ∧
      t.js.journal = .ready := by decide +kernel

theorem witness_PreparationAndReclamation :
    (∀ st ∈ [SegState.free, .clearing, .prepared, .sealed],
      ((nextIs st).js.index[(nextIs st).js.filling + 1]).state = st) ∧
    (let s := ring none;
      (s.js.index[s.js.filling + 1]).state = .sealed ∧ s.js.policy = .wrap ∧ s.js.holdFloor = none) ∧
    (40085 < headerFirst (ring (some 40085)).mem 20 ∧ ¬ 40086 < headerFirst (ring (some 40086)).mem 20) ∧
    ({ ring none with js := { (ring none).js with policy := .stop } }).js.policy = .stop ∧
    ({ ring none with js := { (ring none).js with floorReports := [none] } }).js.floorReports = none :: [] ∧
    (requestCopy (ring none)).js.copyWrite.isSome = true ∧ (ring none).js.copyWrite = none ∧
    (0 < (ring none).js.used ∧ placeState (ring none).mem ((ring none).js.head + Fin.ofNat 64 0) 1 ≠ .free) ∧
    (run.js.used = 1 ∧ placeState run.mem run.js.head 1 = .free) := by decide +kernel

/-- An empty journal whose head, SEALED with a stale number in its header, holds no record: the head sequence is the next
number (R15); with numbering exhausted it lies above every number (log 40). -/
theorem test_head_sequence_of_an_empty_journal :
    let s : State := { run with
      js := { run.js with head := 63, filling := 0, used := 2 }, mem := Memory.writeCells run.mem (headerCells 63 .sealed 400) }
    headSeq s = 501 ∧ headSeq { s with au := { s.au with nextSeq := .exhausted } } = 4294967296 := by decide +kernel

/-- A head segment that holds no record gives its header's number while a later segment holds records (R20). -/
theorem test_head_sequence_of_a_recordless_head :
    headSeq { ring none with mem := Memory.writeCells (ring none).mem [(unitAddr 19 1, 0x00)] } = 40001 := by decide +kernel

theorem witness_ControlBlockWritesAlternate :
    ∃ w, ∀ pending : Bool,
      let s : State := { requestCopy wroteB with js := { (requestCopy wroteB).js with
        copyPending := pending, slot := some { entry := cmd 0x21 [0, 64] [], phase := .policyWait .thisWrite } } }
      s.js.copyWrite = some w ∧ s.pc.supply = .run ∧
        s.js.slot = some { entry := cmd 0x21 [0, 64] [], phase := .policyWait .thisWrite } ∧ s.cp.slot = none ∧
        s.pc.step = .idle :=
  ⟨_, fun _ => ⟨rfl, rfl, rfl, rfl, rfl⟩⟩

/-- A control copy with this generation. -/
def generation (n : Nat) : ControlCopy := { ControlCopy.bad with generation := n, checkOk := true }

theorem witness_LaterCopyByGeneration :
    let less (x y : Nat) : Nat := (x + 4294967296 - y) % 4294967296
    (∀ n ∈ [0, 1, 2147483647, 2147483648, 4294967295], (generation n).generation < 4294967296) ∧
      less (generation 0).generation (generation 4294967295).generation = 1 ∧
      less (generation 2147483647).generation (generation 0).generation = 2147483647 ∧
      less (generation 2147483648).generation (generation 0).generation = 2147483648 ∧
      (generation 1).generation = (generation 1).generation := by decide

theorem witness_JournalCommandsAnswer :
    (∀ e, (inJs e run).js.slot = some { entry := e, phase := .dispatched }) ∧
    (let e := cmd 0x21 [1, 64] []; e.opcode = 0x21 ∧ e.param 0 ≤ 1 ∧ 1 ≤ e.param 1 ∧ e.param 1 ≤ 64 ∧ e.payload = []) ∧
    (1 < (cmd 0x21 [2, 1] []).param 0 ∧ (cmd 0x21 [1, 0] []).param 1 < 1 ∧ 64 < (cmd 0x21 [1, 65] []).param 1) ∧
    (let e := cmd 0x22 [] []; e.opcode = 0x22 ∧ e.payload = []) ∧ (cmd 0x22 [] [0]).payload ≠ [] ∧
    (63 < (cmd 0x23 [64, 2] []).param 0 ∧ 2 < (cmd 0x23 [63, 3] []).param 1) ∧
    (∀ g : Seg, ∀ k : Fin 3, let e := cmd 0x23 [byte g.val, byte k.val] [];
      e.opcode = 0x23 ∧ e.param 0 = g.val ∧ e.payload = [] ∧ e.param 1 = k.val) :=
  ⟨fun _ => rfl, by decide +kernel⟩

/-- `run` with the clearing of segment `g` in progress. -/
def clearingOf (g : Seg) : State := { run with js := { run.js with clearing := some g } }

/-- FORMAT clearing segment 62. -/
def clearing62 : State := { lastClearing with js := { lastClearing.js with clearing := some 62 } }

theorem witness_ClearingEndPreparesSegment :
    ((clearingOf 1).js.clearing = some 1 ∧ (clearingOf 1).pc.supply ≠ .coldInit ∧ (clearingOf 1).js.journal ≠ .formatting ∧
      (clearingOf 1).au.record = none ∧ (clearingOf 1).mem.wf = true) ∧
    (∃ r, writing.au.record = some r ∧ writing.js.journal ≠ .formatting) ∧
    (clearing62.js.journal = .formatting ∧ clearing62.js.clearing = some 62 ∧ (62 : Seg).val < 63 ∧
      clearing62.js.slot = some { entry := cmd 0x20 [1] [], phase := .formatClearing 0 }) :=
  ⟨by decide +kernel, ⟨_, rfl, by decide +kernel⟩, by decide +kernel⟩

theorem witness_FormatEndsWithANewJournal :
    let s := lastClearing
    s.js.clearing = some 63 ∧ s.pc.supply ≠ .coldInit ∧ s.js.journal = .formatting ∧
      s.js.slot = some { entry := cmd 0x20 [1] [], phase := .formatClearing 0 } ∧ s.js.used = 0 ∧
      s.js.head = 0 ∧ s.js.filling = 0 ∧ (s.js.index[1]).state = .prepared := by decide +kernel

/-! ## The Append Unit -/

/-- A payload of `n` bytes. -/
def bytes (n : Nat) : List Byte := List.replicate n 0xAB

/-- An APPEND at the head of the command queue. -/
def dispatched (e : Entry) : State := { run with hp := { run.hp with commands := [e] } }

/-- R47: 233 bytes and class 16 are BAD_PARAM, class 12 is BAD_CLASS, class 11 takes a place and waits. -/
theorem test_append :
    answers (got .append (dispatched (cmd 0x11 [0] (bytes 233)))) = [(0x14, [])] ∧
      answers (got .append (dispatched (cmd 0x11 [16] []))) = [(0x14, [])] ∧
      answers (got .append (dispatched (cmd 0x11 [12] []))) = [(0x13, [])] ∧
      (got .append (dispatched (cmd 0x11 [11] (bytes 232)))).au.hostLane.map HostPlace.state = [.waiting] := by
  decide +kernel

/-- The host record of chapter 1 after its write step began: header OPEN, checks 0000h, payload (10.3). -/
theorem test_arbiter_choice :
    writing.mem.bytes 8 29 =
        [0x3C, 4, 5, 3, 0xFF, 0, 0, 0, 0, 0, 1, 0xF5, 0, 0, 3, 0xE8, 0x40, 0, 0, 0, 0, 0, 0, 0, 0x12, 0x34, 0, 0x7F, 1] ∧
      writing.au.nextSeq = .value 502 ∧ writing.au.fillPoint = 5 ∧ headerFirst writing.mem 0 = 501 := by decide +kernel

/-- The host record of chapter 1 committed: the response of R59, the place free, the index entry updated. -/
theorem test_write_step_end :
    answers one = [(0x01, [0, 0, 1, 0xF5, 0, 0, 3, 0xE8, 0x40, 0])] ∧ one.au.hostLane = [] ∧
      (one.js.index[0]).count = 1 ∧ placeState one.mem 0 1 = .committed ∧ headerCheckOk one.mem 0 1 = true ∧
      payloadCheckOk one.mem 0 1 = true := by decide +kernel

/-- The sequence of 3.7: with fill point 256 tag 4 opens segment 10 for 7,003, the head 11 is reclaimed. -/
def boundary : State :=
  { run with
    js := { run.js with
      head := 11, filling := 9, used := 63
      index := ((Vector.replicate 64 (IndexEntry.empty .sealed)).set 9 (IndexEntry.empty .filling)).set 10
        (IndexEntry.empty .prepared) }
    au := { run.au with nextSeq := .value 7003, fillPoint := 256 } }

/-- `boundary` with the request for the next segment at the JS. -/
def requesting : State := got .arbiterChoice (inLane (cmd 0x11 [2] (bytes 40)) boundary)

/-- The open of segment 10 (3.7). -/
theorem test_next_segment_request :
    let t := got .nextSegmentRequest requesting
    t.js.filling = 10 ∧ t.js.head = 12 ∧ t.js.used = 63 ∧ headerFirst t.mem 10 = 7003 ∧ t.au.fillPoint = 9 ∧
      t.au.nextSeq = .value 7004 ∧ t.js.clearing = some 11 ∧ t.js.copyPending = true := by decide +kernel

/-- The refusal of 3.8: the next segment is held, and tag 7 is answered HELD. -/
theorem test_next_segment_held :
    let s := { ring (some 40050) with au := { (ring (some 40050)).au with fillPoint := 254 } }
    answers (got .nextSegmentRequest (got .arbiterChoice (inLane (cmd 0x11 [2] (bytes 30)) s))) = [(0x11, [])] := by
  decide +kernel

/-- A verified burst of node 4 in slot `0` with one queued record. -/
def queuedBurst : Burst :=
  { node := 4, num := 7, count := 1, verified := true, arrival := { seconds := 2000, ticks := 1000 }, windowLen := 5
    beatsLeft := some 5, ack := .notDue
    records := [{ cls := 2, nodeSeq := 20, age := 96, payload := bytes 10, crc := 0
                  stamp := { seconds := 2000, ticks := 904 }, unset := false, res := .queued }] }

/-- `s` with this burst in slot 0. -/
def withBurst (b : Burst) (s : State) : State :=
  { s with cp := { s.cp with slots := s.cp.slots.set 0 (some b), order := [0] } }

/-- `s` with the host lane served last. -/
def servedHost (s : State) : State := { s with au := { s.au with lastServed := .host } }

theorem witness_ArbiterAlternates :
    let host : HostPlace := { entry := cmd 0x11 [11] [], state := .waiting }
    let both := withBurst queuedBurst (inLane (cmd 0x11 [11] []) run)
    (run.au.record = none ∧ run.au.nextSeq = .value 501 ∧ run.au.paused = false ∧ run.au.systemLane = [] ∧
      captureOffer run.cp = none ∧ run.au.hostLane.find? (fun p => p.state == .waiting) = none) ∧
    crowded.au.systemLane ≠ [] ∧ (stopping run).au.paused = true ∧
    (both.au.hostLane.find? (fun p => p.state == .waiting) = some host ∧ both.au.lastServed = .capture ∧
      captureOffer both.cp = some (0, 0) ∧ both.cp.slots[0] = some queuedBurst ∧ (servedHost both).au.lastServed = .host) ∧
    captureOffer (inLane (cmd 0x11 [11] []) run).cp = none := by decide +kernel

/-- `run` with an APPEND of `n` bytes waiting and the fill point at `u`. -/
def readyFor (n u : Nat) : State :=
  let s := inLane (cmd 0x11 [11] (bytes n)) run
  { s with au := { s.au with fillPoint := u } }

theorem witness_HostRecordWritten :
    ∀ p ∈ [(0, 1), (232, 1), (0, 253), (232, 224)],
      let s := readyFor p.1 p.2
      let e := cmd 0x11 [11] (bytes p.1)
      s.mem.wf = true ∧ s.au.paused = false ∧ s.au.record = none ∧ s.au.nextSeq = .value 501 ∧ s.au.systemLane = [] ∧
        s.au.hostLane = { entry := e, state := .waiting } :: [] ∧ captureOffer s.cp = none ∧ e.param 0 < 12 ∧
        1 ≤ s.au.fillPoint ∧ s.au.fillPoint + (3 + (e.payload.length + 7) / 8) ≤ 256 ∧ e.payload.length ≤ 232 := by
  decide +kernel

/-- `run` with a record of one byte that asks for the next segment. -/
def askingNext (st : SegState) : State :=
  let s := got .arbiterChoice { readyFor 1 256 with js := (nextIs st).js }
  s

theorem witness_NextSegmentOpens :
    ∃ r, (askingNext .prepared).au.record = some r ∧ (askingNext .prepared).mem.wf = true ∧ r.phase = .requesting ∧
      (askingNext .prepared).au.nextSeq = .value 501 ∧
      (501 : Nat) < 4294967296 ∧ r.data.payload.length ≤ 232 ∧
      ((askingNext .prepared).js.index[(askingNext .prepared).js.filling + 1]).state = .prepared :=
  ⟨_, rfl, by decide +kernel⟩

/-- `nextIs st` with a record of this origin that asks for the next segment. -/
def askingFor (o : Origin) (st : SegState) : State :=
  setRecord (some (InProgress.take (Record.plain .system 15 []) o)) (nextIs st)

theorem witness_NextSegmentWaitsOrRefuses :
    (∀ o ∈ [Origin.system .silent, .capture 0 0], ∀ st ∈ [SegState.free, .clearing, .sealed],
      (askingFor o st).au.record.any (fun r => r.phase == .requesting && r.origin == o) = true ∧
        ((askingFor o st).js.index[(askingFor o st).js.filling + 1]).state = st ∧ (askingFor o st).js.policy = .wrap ∧
        nextHeld (askingFor o st) = false) ∧
    (∀ st, ∃ r, (askingNext st).au.record = some r ∧ r.phase = .requesting ∧ r.origin = .host 7 ∧
      (askingNext st).au.holdup = .idle ∧ (askingNext st).au.formatAsked = false) ∧
    (∀ st ∈ [SegState.free, .clearing, .sealed],
      ((askingNext st).js.index[(askingNext st).js.filling + 1]).state = st) ∧
    (askingNext .sealed).js.policy = .wrap ∧ nextHeld (askingNext .sealed) = false ∧
    nextHeld (ring (some 40050)) = true ∧
    ({ askingNext .sealed with js := { (askingNext .sealed).js with policy := .stop } }).js.policy = .stop :=
  ⟨by decide +kernel, fun st => ⟨_, rfl, by cases st <;> decide +kernel⟩, by decide +kernel⟩

theorem witness_CommitEndsAppend :
    (∃ r, writing.au.record = some r ∧ writing.mem.wf = true ∧ r.phase = .writing ∧ r.origin = .host 7 ∧ r.unit ≤ 253 ∧
      writing.au.holdup = .idle ∧ writing.au.formatAsked = false) ∧
    (got .arbiterChoice (readyFor 0 253)).au.record.map InProgress.unit = some 253 ∧
    (got .arbiterChoice (withBurst queuedBurst (servedHost run))).au.record.map (fun r => (r.origin, r.phase)) =
      some (.capture 0 0, .writing) ∧
    (got .arbiterChoice crowded).au.record.map (fun r => (r.origin, r.phase)) = some (.system .silent, .writing) :=
  ⟨⟨_, rfl, by decide +kernel⟩, by decide +kernel, by decide +kernel, by decide +kernel⟩

/-- `s` with numbering exhausted. -/
def exhausted (s : State) : State := { s with au := { s.au with nextSeq := .exhausted } }

/-- R62, R60: exhausted numbering drops a system request and counts it; a host record is answered SEQ_EXHAUSTED. -/
theorem test_exhausted :
    let t := got .arbiterChoice (exhausted crowded)
    t.au.systemLost = 1 ∧ t.hp.events = 0x20 ∧ t.au.systemLane.length = 3 ∧
      answers (got .arbiterChoice (exhausted (inLane (cmd 0x11 [3] sample) run))) = [(0x12, [])] := by decide +kernel

/-- `run` with a record of this origin that asks for the next segment, which is SEALED. -/
def askingSealed (o : Origin) : State := askingFor o .sealed

theorem witness_RefusedRecordsAreAccounted :
    (let s := exhausted crowded;
      s.au.paused = false ∧ s.au.record = none ∧ s.au.nextSeq = .exhausted ∧ s.au.holdup = .idle ∧ s.au.formatAsked = false ∧
        s.au.systemLane.head? = some (SysRequest.make .silent 0 (be32 0)) ∧ s.au.systemLane.length = 4) ∧
    (let s := exhausted (inLane (cmd 0x11 [3] sample) run);
      s.au.systemLane = [] ∧ s.au.hostLane = { entry := cmd 0x11 [3] sample, state := .waiting } :: [] ∧
        captureOffer s.cp = none) ∧
    (let s := exhausted (withBurst queuedBurst run);
      s.au.hostLane = [] ∧ captureOffer s.cp = some (0, 0) ∧ s.cp.slots[(0 : Fin 2)] = some queuedBurst) ∧
    (∀ o ∈ [Origin.system .silent, .system .timeSet, .capture 0 0],
      (askingSealed o).au.record = some (InProgress.take (Record.plain .system 15 []) o) ∧
        ((askingSealed o).js.index[(askingSealed o).js.filling + 1]).state = .sealed) ∧
    (InProgress.take (Record.plain .system 15 []) (.system .silent)).phase = .requesting ∧
    ({ (askingSealed (.capture 0 0)).js with policy := .stop }).policy = .stop ∧ nextHeld (ring (some 40050)) = true ∧
    run.au.systemLane.length < 4 ∧ ({ run.au with holdup := .asked }).holdup ≠ .idle := by decide +kernel

/-- R177, R194: the commit of RECOVERED enters RUN; R197: that of COLD_START with PFI low goes on to HOLDUP, its latch
cleared and POWER_DOWN being written; R194: a RECOVERED that exhausted numbering refuses is counted lost and enters RUN. -/
theorem test_run_is_entered :
    let t := got .writeStepEnd recovering
    let u := got .writeStepEnd (coldStarting true)
    let x := got .arbiterChoice (exhausted { run with
      pc := { run.pc with supply := .recover }, js := { run.js with journal := .notReady }, hp := Hp.start
      au := { run.au with systemLane := [SysRequest.make .recovered 2 [0, 0, 0, 0, 0]] } })
    (t.pc.supply = .run ∧ t.hp.offline = false ∧ t.hp.events = 0x40 ∧ t.wu.notices = [] ∧ t.js.journal = .ready) ∧
      (u.pc.supply = .holdup ∧ u.pc.latch = false ∧ u.au.record.map (fun r => r.origin) = some (.system .powerDown)) ∧
      (x.pc.supply = .run ∧ x.hp.events = 0x60 ∧ x.au.systemLost = 1) := by decide +kernel

theorem witness_AppendEndStartsWhatWaits :
    (recovering.pc.supply = .recover ∧ recovering.au.holdup = .idle ∧ recovering.au.formatAsked = false ∧
      recovering.pc.pfiLow = false ∧
      recovering.au.record.map (fun r => (r.origin, r.phase)) = some (.system .recovered, .writing)) ∧
    (∀ low : Bool, (coldStarting low).pc.supply = .coldInit ∧ (coldStarting low).pc.pfiLow = low ∧
      (coldStarting low).au.record.map (fun r => (r.origin, r.phase)) = some (.system .coldStart, .writing)) ∧
    (∀ o ∈ [Origin.system .recovered, .system .powerDown], ∀ p ∈ [Policy.stop, .wrap],
      let s := { askingSealed o with
        pc := { run.pc with supply := .recover }, js := { (askingSealed o).js with policy := p, holdFloor := some 0 }
        mem := Memory.writeCells run.mem (headerCells 2 .sealed 1) };
      s.au.record.any (fun r => r.origin == o && r.phase == .requesting) = true ∧
        (s.js.index[s.js.filling + 1]).state = .sealed ∧ (s.js.policy = .stop ∨ nextHeld s = true)) ∧
    (let s := exhausted { run with
        pc := { run.pc with supply := .recover }
        au := { run.au with systemLane := [SysRequest.make .recovered 2 [0, 0, 0, 0, 0]] } };
      s.au.record = none ∧ s.au.paused = false ∧ s.au.nextSeq = .exhausted ∧ s.au.holdup = .idle ∧
        s.au.systemLane = [SysRequest.make .recovered 2 [0, 0, 0, 0, 0]]) ∧
    (writing.au.record.any (fun r => r.phase == .writing && r.origin == .host 7) = true ∧ writing.au.holdup = .idle ∧
      (stopping writing).au.formatAsked = true ∧ writing.js.journal = .ready ∧ writing.au.nextSeq = .value 502 ∧
      writing.au.fillPoint ≤ 252 ∧ (got (.holdup (.falls 0)) writing).au.holdup = .asked) ∧
    (got .writeStepEnd (got (.holdup (.falls 0)) writing)).au.record.map (fun r => (r.origin, r.phase)) =
      some (.system .powerDown, .writing) := by decide +kernel

/-! ## The Cursor Unit -/

/-- A journal that holds record 501 alone, with nothing posted and no notice on its way. -/
def journal1 : State := { one with hp := run.hp, cu := run.cu, wu := run.wu }

/-- OPEN of cursor `c` with these options, start kind and start number. -/
def opening (c options kind : Byte) (n : Nat) : Entry :=
  cmd 0x30 [c, options, 0, 40, 0, 0] (hostDescBytes ++ [kind] ++ be32 n)

/-- OPEN at SEQ 400 below the head sequence 501: 101 numbers skipped, LOST (R107, R124). -/
theorem test_open_clamped :
    let t := got .openCursor (inCu (opening 0 0 2 400) journal1)
    answers t = [(0x00, [0, 0, 0, 1, 0xF5, 0, 0, 0, 101])] ∧ (t.cu.cursors[0]).lost = 101 ∧ t.hp.events = 0x20 := by
  decide +kernel

/-- R106: follow with BACKWARD, a budget of 0 and SEQ 0 are refused. -/
theorem test_open_refused :
    answers (got .openCursor (inCu (opening 0 3 0 0) journal1)) = [(0x14, [])] ∧
      answers (got .openCursor (inCu (opening 0 0 2 0) journal1)) = [(0x14, [])] ∧
      answers (got .openCursor (inCu (cmd 0x30 [0, 0, 0, 0] (opening 0 0 0 0).payload) journal1)) = [(0x14, [])] := by
  decide +kernel

/-- SEEK to TAIL of a forward cursor: the next number, 502 (R108). -/
theorem test_seek :
    (((got .seek (inCu (cmd 0x31 [0, 1] []) (withCursor0 (forwardAt 501) journal1))).cu.cursors[0]).position) = 502 := by
  decide +kernel

/-- SEEK to TIME 1,000:16,384 finds record 501 (R109). -/
theorem test_seek_time :
    let s := inCu (cmd 0x31 [0, 3] [0, 0, 3, 0xE8, 0x40, 0]) (withCursor0 (forwardAt 502) journal1)
    let t := got .scanStep (got .tailTest (got .seekTime s))
    answers t = [(0x00, [0, 0, 0, 1, 0xF5, 0, 0, 0, 0])] := by decide +kernel

/-- The FETCH of cursor 3 in the reclamation example of chapter 6: 40,010 is below 40,086, 76 numbers are lost. -/
theorem test_fetch_overtaken :
    let s := { ring none with
      js := { (ring none).js with head := 20, used := 63 }, au := { run.au with fillPoint := 29, nextSeq := .value 45310 } }
    let t := got .fetch (inCu (cmd 0x32 [0] []) (withCursor0 (forwardAt 40010) s))
    (t.cu.cursors[0]).lost = 76 ∧ (t.cu.cursors[0]).position = 40086 ∧ (t.cu.cursors[0]).state = .scanning ∧
      t.hp.events = 0x20 := by decide +kernel

/-- A FETCH from 501, at the first record of the filling segment. -/
def scanning : State :=
  got .tailTest (got .fetch (inCu (cmd 0x32 [0] []) (withCursor0 (forwardAt 501) journal1)))

/-- FOUND: the fields of the example of 10.4, and the window. -/
theorem test_scan_step :
    let t := got .scanStep scanning
    answers t = [(0x02, [0, 0, 1, 0xF5, 3, 5, 0, 0, 3, 0xE8, 0x40, 0])] ∧ (t.cu.cursors[0]).position = 502 ∧
      ((t.cu.cursors[0]).window.take 6) = [0xC3, 4, 5, 3, 0xFF, 0] ∧
      ((t.cu.cursors[0]).window.drop 24) = [0x12, 0x34, 0, 0x7F, 1, 0, 0, 0] := by decide +kernel

/-- COUNT of the whole journal: one match (R112). -/
theorem test_count :
    let t := got .scanStep (got .tailTest (got .count (inCu (cmd 0x33 [0] []) (withCursor0 (forwardAt 501) journal1))))
    answers (got .tailTest t) = [(0x00, [0, 0, 0, 1, 0, 0, 0, 0])] ∧
      ((got .tailTest t).cu.cursors[0]).position = 501 := by decide +kernel

/-- A cursor with follow on whose fetch has read everything, at the tail test. -/
def following : State :=
  got .scanStep (got .scanStep (got .tailTest (got .fetch (inCu (cmd 0x32 [0] [])
    (withCursor0 { forwardAt 501 with follow := true, timeout := 3072, desc := { hostDesc with classes := 0x10 } }
      { journal1 with js := { journal1.js with
        index := journal1.js.index.set 0 { (journal1.js.index[0]) with classes := 0x18 } } })))))

/-- The parked fetch. -/
def parked : State := got .tailTest following

/-- The park of R113. -/
theorem test_tail_test_parks :
    (parked.cu.cursors[0]).state = .parked ∧ (parked.cu.cursors[0]).position = 502 ∧
      (parked.cu.cursors[0]).beatsLeft = some 3072 ∧ parked.cu.slot = none ∧ answers parked = [] := by decide +kernel

/-- `parked` with this commit notice on its way. -/
def told (c : Notice) : State := { parked with cu := { parked.cu with notices := [c] } }

/-- A notice of a HOST record numbered `n` of class `k`. -/
def appended (n k : Nat) : Notice :=
  { seq := n, cls := k, source := .host, node := 255, nodeSeq := 0, stamp := { seconds := 1000, ticks := 20000 }
    unset := false, key := 0, len := 5, seg := 0, unit := 1 }

/-- A notice that does not match moves the position; one that does answers FOUND (R114). -/
theorem test_cu_commit_notice :
    ((got .cuCommitNotice (told (appended 502 3))).cu.cursors[0]).position = 503 ∧
      answers (got .cuCommitNotice (told (appended 502 4))) = [(0x02, [0, 0, 1, 0xF6, 4, 5, 0, 0, 3, 0xE8, 0x4E, 0x20])] := by
  decide +kernel

/-- `parked` with its timeout over. -/
def overdue : State := withCursor0 { (parked.cu.cursors[0]) with beatsLeft := some 0 } parked

/-- TIMEOUT with the position (R115, 10.3). -/
theorem test_follow_timeout : answers (got (.followTimeout 0) overdue) = [(0x05, [0, 0, 0, 1, 0xF6])] := by decide +kernel

/-- CANCELLED for the fetch, then DONE for CANCEL (R116). -/
theorem test_cancel : answers (got .cancel (inCu (cmd 0x34 [0] []) parked)) = [(0x06, []), (0x00, [])] := by decide +kernel

/-- CLOSED for the fetch, then DONE for CLOSE (R117). -/
theorem test_close :
    let t := got .close (inCu (cmd 0x35 [0] []) parked)
    answers t = [(0x07, []), (0x00, [])] ∧ (t.cu.cursors[0]).state = .closed := by decide +kernel

/-- CURSOR_STATUS of a READY cursor past every number, holding (R126, 10.3). -/
theorem test_cursor_status :
    answers (got .cursorStatus (inCu (cmd 0x36 [0] [])
      (withCursor0 { forwardAt 4294967296 with hold := true, delivered := 2, lost := 60 } run))) =
      [(0x00, [0x91, 0, 0, 0, 0, 0, 0, 0, 2, 0, 0, 0, 60])] := by decide +kernel

/-- The reclaim notice of the example of chapter 6. -/
def reclaimed (x : Cursor) : State :=
  withCursor0 x { ring none with cu := { run.cu with
    reclaims := [{ seg := 19, oldHead := 40001, newHead := 40086, seenBy := [] }] } }

/-- Cursor 2 of that example, BACKWARD at 40,060: pending loss 60, position 40,085. -/
theorem test_reclaim_notice :
    let x := (got .reclaimNotice (reclaimed { forwardAt 40060 with backward := true })).cu.cursors[0]
    x.pendingLoss = 60 ∧ x.position = 40085 := by decide +kernel

/-- `run` with two cursors that hold, at 10 and 20. -/
def holding : State :=
  let x (p : Nat) : Cursor := { forwardAt p with hold := true }
  { run with cu := { run.cu with cursors := (run.cu.cursors.set 0 (x 10)).set 1 (x 20) } }

theorem witness_HoldFloorFollowsCursors :
    run.cu.floor = none ∧ holding.cu.floor = some 10 ∧ ((none : Option Nat) = none ∨ ∃ k, (none : Option Nat) = some k ∧ 10 < k) ∧
      (∃ k, some 11 = some k ∧ 10 < k) ∧ (∃ m, holding.cu.floor = some m ∧ 9 < m) :=
  ⟨by decide +kernel, by decide +kernel, .inl rfl, ⟨11, rfl, by decide⟩, ⟨10, by decide +kernel, by decide⟩⟩

theorem witness_OpenSetsUpCursor :
    (∀ e, (inCu e journal1).cu.slot = some { entry := e, scan := none }) ∧ 3 < (opening 4 0 0 0).param 0 ∧
    (∀ c : Fin 4, (opening (byte c.val) 0 0 0).param 0 = c.val ∧ (journal1.cu.cursors[c]).state = .closed) ∧
    journal1.cu.noOpen = false ∧ ({ journal1.cu with noOpen := true }).noOpen = true ∧
    ((withCursor0 (forwardAt 1) journal1).cu.cursors[(0 : Fin 4)]).state ≠ .closed ∧
    (∀ o ∈ [(0 : Byte), 1, 2, 4, 6], ∀ k ∈ [(0 : Byte), 1, 2],
      let e := opening 3 o k 1
      (e.param 1 = 0 ∨ e.param 1 = 1 ∨ e.param 1 = 2 ∨ e.param 1 = 4 ∨ e.param 1 = 6) ∧ e.opcode = 0x30 ∧
        e.payload.length = 27 ∧ e.param16 2 ≠ 0 ∧ rd8 e.payload 22 ≤ 2 ∧ (rd8 e.payload 22 = 2 → rd32 e.payload 23 ≠ 0) ∧
        parseDescriptor e.payload = some hostDesc) := ⟨fun _ => rfl, by decide +kernel⟩

theorem witness_SeekSetsPosition :
    ∀ k : Fin 3, ∀ b : Bool,
      let e := cmd 0x31 [0, byte k.val] (if k.val = 2 then be32 1 else [])
      let s := inCu e (withCursor0 { forwardAt 501 with backward := b, hold := !b } journal1)
      s.cu.slot = some { entry := e, scan := none } ∧ e.opcode = 0x31 ∧ e.param 0 = (0 : Fin 4).val ∧
        (s.cu.cursors[(0 : Fin 4)]).state = .ready ∧ e.param 1 ≤ 2 ∧
        e.payload.length = (if e.param 1 = 2 then 4 else 0) ∧ (e.param 1 = 2 → rd32 e.payload 0 ≠ 0) ∧
        ((s.cu.cursors[(0 : Fin 4)]).backward = false → (s.cu.cursors[(0 : Fin 4)]).hold = true →
          headSeq s ≤ (s.cu.cursors[(0 : Fin 4)]).position) := by decide +kernel

theorem witness_SearchesBeginScanning :
    (∀ p ∈ [400, 501, 502], ∀ b : Bool, ∀ o ∈ [(0x32 : Byte), 0x33],
      let e := cmd o [0] []
      let s := inCu e (withCursor0 { forwardAt p with backward := b } journal1)
      s.cu.slot = some { entry := e, scan := none } ∧ e.param 0 = (0 : Fin 4).val ∧
        (s.cu.cursors[(0 : Fin 4)]).state = .ready ∧ e.payload = []) ∧
    (let e := cmd 0x31 [3, 3] [0, 0, 0, 0, 0x7F, 0xFF];
      e.opcode = 0x31 ∧ e.param 0 = (3 : Fin 4).val ∧ e.param 1 = 3 ∧ e.payload.length = 6 ∧ rd16 e.payload 4 ≤ 32767) := by
  decide +kernel

theorem witness_CursorTestsComeFirst :
    (∀ e, (inCu e parked).cu.slot = some { entry := e, scan := none }) ∧
    (∀ o ∈ [(0x31 : Byte), 0x32, 0x33, 0x34, 0x35, 0x36], (cmd o [4] []).opcode = o ∧ 3 < (cmd o [4] []).param 0 ∧
      (cmd o [0] []).param 0 = (0 : Fin 4).val ∧ (cmd o [3] []).param 0 = (3 : Fin 4).val ∧ (cmd o [0] [0]).payload ≠ []) ∧
    ((parked.cu.cursors[(0 : Fin 4)]).state = .parked ∧ (parked.cu.cursors[(3 : Fin 4)]).state = .closed ∧
      ((withCursor0 (forwardAt 1) run).cu.cursors[(0 : Fin 4)]).state = .ready) ∧
    (3 < (cmd 0x31 [0, 4] []).param 1 ∧ (cmd 0x31 [0, 2] []).payload.length ≠ 4 ∧
      rd32 (cmd 0x31 [0, 2] [0, 0, 0, 0]).payload 0 = 0 ∧ 32767 < rd16 (cmd 0x31 [0, 3] [0, 0, 0, 0, 0x80, 0]).payload 4) ∧
    (parked.cu.noOpen = false ∧ (cmd 0x30 [3] []).opcode = 0x30 ∧ (opening 3 3 0 0).param 1 ∉ [0, 1, 2, 4, 6] ∧
      (opening 3 8 0 0).param 1 ∉ [0, 1, 2, 4, 6] ∧ (cmd 0x30 [3] []).payload.length ≠ 27 ∧
      (cmd 0x30 [3, 0, 0, 0] []).param16 2 = 0 ∧ 2 < rd8 (opening 3 0 3 1).payload 22 ∧
      (rd8 (opening 3 0 2 0).payload 22 = 2 ∧ rd32 (opening 3 0 2 0).payload 23 = 0)) :=
  ⟨fun _ => rfl, by decide +kernel⟩

/-- R101: FETCH on a PARKED cursor is CURSOR_BUSY, on a CLOSED one CURSOR_CLOSED; cursor 4 is BAD_PARAM. -/
theorem test_cursor_tests :
    (answers (got .fetch (inCu (cmd 0x32 [0] []) parked)) = [(0x15, [])]) ∧
      answers (got .fetch (inCu (cmd 0x32 [1] []) parked)) = [(0x16, [])] ∧
      answers (got .fetch (inCu (cmd 0x32 [4] []) parked)) = [(0x14, [])] := by decide +kernel

theorem witness_CancelCloseAndStatusAnswer :
    (∀ e, (inCu e parked).cu.slot = some { entry := e, scan := none }) ∧
    (∀ o ∈ [(0x34 : Byte), 0x35, 0x36], let e := cmd o [0] [];
      e.opcode = o ∧ e.param 0 = (0 : Fin 4).val ∧ e.payload = []) ∧
    (parked.cu.cursors[(0 : Fin 4)]).state = .parked ∧ (parked.cu.cursors[(0 : Fin 4)]).fetchTag = some 7 ∧
    ((withCursor0 (forwardAt 1) run).cu.cursors[(0 : Fin 4)]).state = .ready ∧ scanning.cu.slot ≠ none ∧
    ({ scanning with hp := { scanning.hp with commands := [cmd 0x34 [0] []] } }).hp.commands = cmd 0x34 [0] [] :: [] :=
  ⟨fun _ => rfl, by decide +kernel⟩

/-- A backward FETCH at the end of segment 0. -/
def scanningBack : State :=
  got .scanStep (got .fetch (inCu (cmd 0x32 [0] []) (withCursor0 { forwardAt 501 with backward := true } journal1)))

theorem witness_ScanFindsMatch :
    (let sc : Scan := Scan.mk 0 .fetch 501 0 (some 1) 0 0 0 0 false;
      scanning.cu.slot = some { entry := cmd 0x32 [0] [], scan := some sc } ∧ sc.left = false ∧
      (scanning.cu.cursors[sc.cursor]).backward = false ∧ sc.pos ≤ (stored scanning.mem sc.seg 1).seq ∧
      (stored scanning.mem sc.seg 1).state = .committed ∧
      (scanning.cu.cursors[sc.cursor]).desc.acceptsStored (stored scanning.mem sc.seg 1) = true) ∧
    (let sc : Scan := Scan.mk 0 .fetch 501 0 (some 256) 0 0 0 0 false;
      scanningBack.cu.slot = some { entry := cmd 0x32 [0] [], scan := some sc } ∧
      sc.left = false ∧ (scanningBack.cu.cursors[sc.cursor]).backward = true ∧
      (stored scanningBack.mem sc.seg 1).seq ≤ sc.pos ∧ lastBelow scanningBack.mem sc.seg 256 = some 1 ∧
      (stored scanningBack.mem sc.seg 1).state = .committed ∧
      (scanningBack.cu.cursors[sc.cursor]).desc.acceptsStored (stored scanningBack.mem sc.seg 1) = true) := by
  decide +kernel

/-- A FETCH or COUNT from 501 whose descriptor lets the filling segment be pruned. -/
def pruned (opcode : Byte) (follow : Bool) : State :=
  let s := inCu (cmd opcode [0] []) (withCursor0 { forwardAt 501 with follow := follow, desc := Descriptor.empty } journal1)
  if opcode = 0x32 then got .fetch s else got .count s

/-- `journal1` with this scan in the slot, of a cursor that selects these classes. -/
def stepping (classes : BitVec 16) (backward : Bool) (sc : Scan) : State :=
  let s := withCursor0
    { forwardAt 501 with state := .scanning, backward := backward, desc := { hostDesc with classes := classes } } journal1
  { s with cu := { s.cu with slot := some { entry := cmd 0x32 [0] [], scan := some sc } } }

/-- The scan of the segment with record 501, from `unit`, with the next number `pos` and `n` records examined. -/
def at501 (kind : ScanKind) (pos n : Nat) (unit : Option Nat) : Scan :=
  { Scan.begin 0 kind pos 0 0 with unit := unit, examined := n }

/-- Cursor 0, and its scan's segment's index entry tested against it. -/
def cursor0 (s : State) : Cursor := s.cu.cursors[(0 : Fin 4)]
def holds0 (s : State) : Bool := (cursor0 s).desc.canHold s.js.index[(0 : Seg)]

/-- R103: at the tail test a COMMITTED record is read as by a scan step. -/
theorem test_tail_test_reads : answers (got .tailTest scanning) = answers (got .scanStep scanning) := by decide +kernel

theorem witness_TailTestEndsOrParks :
    ((stepping 8 false (at501 .fetch 501 0 (some 1))).cu.slot =
        some { entry := cmd 0x32 [0] [], scan := some (at501 .fetch 501 0 (some 1)) } ∧
      (at501 .fetch 501 0 (some 1)).left = false ∧ placeState (stepping 8 false (at501 .fetch 501 0 (some 1))).mem 0 1 = .committed ∧
      (at501 .fetch 501 0 none).seg = journal1.js.filling ∧ (Scan.begin 0 .fetch 40001 19 0).seg ≠ (ring none).js.filling ∧
      holds0 (stepping 8 false (at501 .fetch 501 0 none)) = true ∧
      (cursor0 (stepping 8 false (at501 .fetch 501 0 none))).backward = false) ∧
    (∀ f : Bool, ∀ o ∈ [(0x32 : Byte), 0x33], (pruned o f).cu.slot.any (fun x => x.scan.any (fun sc =>
      sc.seg == (pruned o f).js.filling && !sc.left && sc.owed == 0 && sc.skipped ≤ 4294967295
        && sc.unit.isNone && !(((pruned o f).cu.cursors[sc.cursor]).desc.canHold (pruned o f).js.index[sc.seg])
        && !((pruned o f).cu.cursors[sc.cursor]).backward && ((pruned o f).cu.cursors[sc.cursor]).follow == f
        && sc.kind == (if o = 0x32 then .fetch else .count))) = true) ∧
    following.cu.slot.any (fun x => x.scan.any (fun sc =>
      sc.seg == following.js.filling && !sc.left && sc.owed == 0 && sc.unit == some 5
        && placeState following.mem sc.seg 5 == .free && sc.kind == .fetch)) = true := by decide +kernel

theorem witness_ParkedFetchAnswers :
    let x := parked.cu.cursors[(0 : Fin 4)]
    x.state = .parked ∧ x.fetchTag = some 7 ∧ (told (appended 501 4)).cu.notices = appended 501 4 :: [] ∧
      parked.cu.stopped = false ∧ (∀ b : Fin 4, b ≠ 0 → (parked.cu.cursors[b]).state ≠ .parked) ∧
      (appended 501 4).seq < x.position ∧ x.position ≤ (appended 502 4).seq ∧ x.desc.acceptsNotice (appended 502 3) = false ∧
      x.desc.acceptsNotice (appended 502 4) = true ∧ (overdue.cu.cursors[(0 : Fin 4)]).state = .parked ∧
      (overdue.cu.cursors[(0 : Fin 4)]).fetchTag = some 7 ∧ (overdue.cu.cursors[(0 : Fin 4)]).beatsLeft = some 0 := by
  decide +kernel

/-- A scan that examines 40,010 next in segment 19 of the ring, which has been reclaimed with its notice on its way. -/
def left19 (kind : ScanKind) (pos : Nat) : Scan := { Scan.begin 0 kind pos 19 0 with left := true }

/-- The ring with that scan in the slot. -/
def scanning19 (kind : ScanKind) (backward : Bool) (pos : Nat) : State :=
  let s := reclaimed { forwardAt pos with state := .scanning, backward := backward }
  { s with
    js := { s.js with head := 20, used := 63 }
    cu := { s.cu with slot := some { entry := cmd 0x32 [0] [], scan := some (left19 kind pos) } } }

theorem witness_ReclaimNoticeAccountsLosses :
    let n : ReclaimNotice := { seg := 19, oldHead := 40001, newHead := 40086, seenBy := [] }
    (∀ p ∈ [40000, 40001, 40085, 40086], ∀ b : Bool,
      let s := reclaimed { forwardAt p with backward := b }
      s.cu.reclaims = n :: [] ∧ s.cu.stopped = false ∧ s.cu.slot = none ∧ n.seenBy = [] ∧ (s.cu.cursors[(0 : Fin 4)]).state = .ready ∧
        (s.cu.cursors[(0 : Fin 4)]).backward = b ∧ (s.cu.cursors[(0 : Fin 4)]).position = p) ∧
    (∀ k ∈ [ScanKind.fetch, .count],
      let s := scanning19 k false 40010
      s.cu.reclaims = n :: [] ∧ s.cu.stopped = false ∧
        s.cu.slot = some { entry := cmd 0x32 [0] [], scan := some (left19 k 40010) } ∧
        (left19 k 40010).left = true ∧ (left19 k 40010).seg = n.seg ∧ (Scan.begin 0 k 40010 19 0).left = false ∧
        (s.cu.cursors[(0 : Fin 4)]).backward = false) ∧
    ((got .scanStep (scanning19 .count true 45000)).cu.reclaims.any (fun m => m.seenBy.contains 0) = true ∧
      (got .scanStep (scanning19 .count true 45000)).cu.slot.any (fun x => x.scan.any (fun sc => sc.cursor == 0)) = true) := by
  decide +kernel

/-- R121, R123: with a second reclamation's notice on its way, the backward FETCH that the first one ends goes before the head
that the first names, and the second finds it below and adds nothing. -/
theorem test_second_notice_adds_nothing :
    let s := scanning19 .fetch true 40060
    let t := got .reclaimNotice { s with cu := { s.cu with
      reclaims := s.cu.reclaims ++ [{ seg := 20, oldHead := 40086, newHead := 40171, seenBy := [] }] } }
    (t.cu.cursors[0]).position = 40085 ∧ t.cu.reclaims.length = 1 ∧ (t.cu.cursors[0]).lost = 60 ∧
      ((got .reclaimNotice t).cu.cursors[0]).pendingLoss = 0 ∧ ((got .reclaimNotice t).cu.cursors[0]).position = 40085 := by
  decide +kernel

/-- R121, R123: the same by reading: the FETCH goes before 40,086 and the second notice adds nothing; a COUNT that the first
reclamation ends stays at 45,000, and the second notice, of which it has not learned, adds segment 20's 85 numbers. -/
theorem test_second_notice_after_reading :
    let second := fun (s : State) (k : ScanKind) (p : Nat) => got .reclaimNotice (got .reclaimNotice (got .scanStep { s with
      cu := { s.cu with
        reclaims := s.cu.reclaims ++ [{ seg := 20, oldHead := 40086, newHead := 40171, seenBy := [] }]
        cursors := s.cu.cursors.set 0 { s.cu.cursors[(0 : Fin 4)] with position := p }
        slot := some { entry := cmd 0x32 [0] [], scan := some (left19 k 40060) } } }))
    let f := second (scanning19 .fetch true 40060) .fetch 40060
    let c := second (scanning19 .count true 40060) .count 45000
    (f.cu.cursors[0]).position = 40085 ∧ (f.cu.cursors[0]).lost = 60 ∧ (f.cu.cursors[0]).pendingLoss = 0 ∧
      (c.cu.cursors[0]).position = 45000 ∧ (c.cu.cursors[0]).lost = 60 ∧ (c.cu.cursors[0]).pendingLoss = 85 := by
  decide +kernel

/-- R123: a backward COUNT at 40,060, inside the reclaimed segment 19 of chapter 6, ends with 60 numbers lost, by the notice as
by reading; one above, at 45,000, owes the segment's 85 numbers once and goes on. -/
theorem test_backward_losses :
    let fields := fun (s : State) => s.hp.responses.map (fun r => (r.lost, r.fields))
    let owed := fun (s : State) => s.cu.slot.bind (fun x => x.scan.map (fun sc => (sc.owed, sc.seg, sc.left)))
    let above := got .scanStep (scanning19 .count true 45000)
    fields (got .reclaimNotice (scanning19 .count true 40060)) = [(true, [0, 0, 0, 0, 0, 0, 0, 60])] ∧
      fields (got .scanStep (scanning19 .count true 40060)) = [(true, [0, 0, 0, 0, 0, 0, 0, 60])] ∧
      owed above = some (85, 20, false) ∧ owed (got .reclaimNotice above) = some (85, 20, false) ∧
      owed (got .reclaimNotice (scanning19 .count true 45000)) = some (85, 20, false) := by decide +kernel

/-- R122: a forward FETCH at 40,010 that reads finds its segment gone, skips 76 numbers, and the notice changes nothing more. -/
theorem test_forward_overtaken :
    let t := got .scanStep (scanning19 .fetch false 40010)
    (t.cu.cursors[0]).lost = 76 ∧ ((got .reclaimNotice t).cu.cursors[0]).lost = 76 ∧
      t.cu.slot.bind (fun x => x.scan.map (fun sc => (sc.pos, sc.seg, sc.skipped))) = some (40086, 20, 76) := by
  decide +kernel

theorem witness_ScanStepsPassOver :
    (∀ k ∈ [ScanKind.fetch, .count], ∀ b : Bool, ∀ c ∈ [(0 : BitVec 16), 8],
      (stepping c b (at501 k 501 39 none)).cu.slot = some { entry := cmd 0x32 [0] [], scan := some (at501 k 501 39 none) } ∧
        (at501 k 501 39 none).left = false ∧ (cursor0 (stepping c b (at501 k 501 39 none))).backward = b ∧
        holds0 (stepping c b (at501 k 501 39 none)) = (c == 8) ∧
        (at501 k 501 39 none).examined + 1 = (cursor0 (stepping c b (at501 k 501 39 none))).budget) ∧
    (journal1.js.filling = 0 ∧ journal1.js.head = 0 ∧ (ring none).js.filling ≠ 19 ∧ (ring none).js.head ≠ 18) ∧
    (placeState journal1.mem 0 1 = .committed ∧ (stored journal1.mem 0 1).seq = 501 ∧ placeState journal1.mem 0 5 = .free ∧
      lastBelow journal1.mem 0 256 = some 1 ∧ lastBelow journal1.mem 0 1 = none ∧ (stored journal1.mem 0 1).state = .committed ∧
      (cursor0 (stepping 0 true (at501 .fetch 501 0 none))).desc.acceptsStored (stored journal1.mem 0 1) = false) ∧
    placeState (Memory.writeCells journal1.mem [(8, 0x66)]) 0 1 = .void := by
  refine ⟨?_, ?_, ?_, ?_⟩
  · intro k hk b c hc
    simp only [List.mem_cons, List.not_mem_nil, or_false] at hk hc
    rcases hk with rfl | rfl <;> rcases hc with rfl | rfl <;> cases b <;> decide +kernel
  · decide +kernel
  · decide +kernel
  · decide +kernel

/-- What the responses in the queue answer. -/
def shown (s : State) : List (Result × Bool × List Byte) := s.hp.responses.map (fun r => (r.result, r.limited, r.fields))

/-- R105, R112: the budget's last record, not a match: LIMIT. -/
theorem test_fetch_limit :
    shown (got .scanStep (stepping 0 false (at501 .fetch 501 39 (some 1)))) = [(.limit, false, [0, 0, 0, 1, 0xF6, 0, 0, 0, 0])] := by
  decide +kernel

/-- R105, R112: a COUNT's last record of the budget, a match: DONE with LIMITED. -/
theorem test_count_limited :
    shown (got .scanStep (stepping 8 false (at501 .count 501 39 (some 1)))) = [(.done, true, [0, 0, 0, 1, 0, 0, 0, 0])] := by
  decide +kernel

/-- R104: a backward FETCH left of the first record ends at the head. -/
theorem test_fetch_ends_at_head :
    shown (got .scanStep (stepping 0 true (at501 .fetch 500 1 (some 1)))) =
      [(.endReached, false, [0, 0, 0, 1, 0xF4, 0, 0, 0, 0])] := by
  decide +kernel

/-- SEEK TIME in `journal1`, whose record 501 is stamped 1,000:16,384. -/
def seekingAt (backward : Bool) (ticks : Nat) (unit : Option Nat) : State :=
  stepping 8 backward (at501 (.seekTime { seconds := 1000, ticks := ticks }) 0 0 unit)

/-- The same at a place. -/
def seekingTime (backward : Bool) (ticks : Nat) (unit : Nat) : State := seekingAt backward ticks (some unit)

/-- The place of the scan in the slot, and how many records it has examined. -/
def scanAt (s : State) : Option (Option Nat × Nat) := s.cu.slot.bind (fun x => x.scan.map (fun sc => (sc.unit, sc.examined)))

/-- R109: a forward SEEK to a later time passes record 501 over, and a backward one to an earlier time does; with the stamps of
the index entry out of reach a backward one is at the head at once, before 501. -/
theorem test_seek_time_passes_over :
    scanAt (got .scanStep (seekingTime false 16385 1)) = some (some 5, 1) ∧
      scanAt (got .scanStep (seekingTime true 16383 256)) = some (some 1, 1) ∧
      shown (got .scanStep (seekingAt true 16383 none)) = [(.done, false, [0, 0, 0, 1, 0xF4, 0, 0, 0, 0])] ∧
      shown (got .tailTest (seekingAt false 16385 none)) = [(.done, false, [0, 0, 0, 1, 0xF6, 0, 0, 0, 0])] := by
  decide +kernel

theorem witness_ScansLoseTheirSegment :
    (∀ k ∈ [ScanKind.fetch, .count, .seekTime { seconds := 0, ticks := 0 }], ∀ b : Bool, ∀ p ∈ [40085, 40086],
      let s := scanning19 k b p
      s.cu.slot = some { entry := cmd 0x32 [0] [], scan := some (left19 k p) } ∧ (left19 k p).left = true ∧
        s.cu.reclaims = { seg := 19, oldHead := 40001, newHead := 40086, seenBy := [] } :: [] ∧ s.cu.stopped = false ∧
        (s.cu.cursors[(0 : Fin 4)]).backward = b ∧ (left19 k p).seg = 19 ∧ (left19 k p).cursor = 0) ∧
    (∀ b : Bool, let s := seekingTime b 16384 (if b then 256 else 1);
      s.cu.slot.bind CuSlot.scan = some (at501 (.seekTime { seconds := 1000, ticks := 16384 }) 0 0 (some (if b then 256 else 1))) ∧
        (s.cu.cursors[(0 : Fin 4)]).backward = b) ∧
    (placeState journal1.mem 0 1 = .committed ∧ lastBelow journal1.mem 0 256 = some 1 ∧ lastBelow journal1.mem 0 1 = none ∧
      (stored journal1.mem 0 1).stamp = { seconds := 1000, ticks := 16384 } ∧ placeState journal1.mem 0 5 = .free) ∧
    (∀ b : Bool, (cursor0 (seekingAt b 16384 none)).backward = b ∧
      (seekingAt b 16384 none).cu.slot.any (fun x => x.scan.any (fun sc => sc.unit.isNone && !sc.left && sc.seg == 0)) = true) ∧
    ((journal1.js.index[(0 : Seg)]).maxStamp = some { seconds := 1000, ticks := 16384 } ∧
      (journal1.js.index[(0 : Seg)]).minStamp = some { seconds := 1000, ticks := 16384 } ∧ journal1.js.head = 0 ∧
      journal1.js.filling = 0 ∧ (ring none).js.head ≠ 18 ∧ (ring none).js.filling ≠ 19) ∧
    placeState (Memory.writeCells journal1.mem [(8, 0x66)]) 0 1 = .void ∧
    Stamp.le { seconds := 1000, ticks := 16385 } { seconds := 1000, ticks := 16384 } = false ∧
    Stamp.le { seconds := 1000, ticks := 16384 } { seconds := 1000, ticks := 16383 } = false := by
  decide +kernel

theorem witness_FormatStopsAndClears :
    (∀ o ∈ [(0 : Byte), 1], let e := cmd 0x20 [o] [];
      (inJs e run).js.slot = some { entry := e, phase := .dispatched } ∧ e.opcode = 0x20 ∧ e.param 0 ≤ 1 ∧ e.payload = []) ∧
    1 < (cmd 0x20 [2] []).param 0 ∧ run.au.record = none ∧ writing.au.record ≠ none ∧
    (∀ s ∈ [run, parked, scanning19 .fetch true 40060], (stopping s).js.auStopped = true ∧
      (stopping s).js.slot = some { entry := cmd 0x20 [1] [], phase := .formatStopping }) ∧
    ((stopping parked).cu.slot = none ∧ ((stopping parked).cu.cursors[(0 : Fin 4)]).state = .parked) ∧
    (stopping (scanning19 .fetch true 40060)).cu.slot =
      some { entry := cmd 0x32 [0] [], scan := some (left19 .fetch 40060) } := by decide +kernel

/-- R127: FORMAT closes a parked fetch, which answers CLOSED, and the cursor with it. -/
theorem test_format_closes_parked :
    let t := got (.auStopped 0) (stopping parked)
    answers t = [(0x07, [])] ∧ (t.cu.cursors[0]).state = .closed ∧ t.cu.noOpen = true := by decide +kernel

/-! ## The Capture Port -/

/-- `run` with the receiver in this state and this burst in reception. -/
def receiving (st : Receiver) (r : Option Reception) : State :=
  { run with cp := { run.cp with receiver := st, reception := r, enabled := true } }

/-- A reception whose header bytes so far are `h`. -/
def header (h : List Byte) : Reception := { Reception.fresh with header := h }

/-- A reception of a burst of node 4 with `count` records, `complete` of them taken, into `slot`. -/
def burstOf (count complete : Nat) (slot : Option (Fin 2)) (current : List Byte) : Reception :=
  { header := [4, 7, byte count, 0], node := 4, num := 7, count := count, slot := slot, complete := complete
    current := current }

/-- The probe of 10.4: the CRC-8 byte A8h makes the header good. -/
theorem test_character_header :
    (got (.characterReceived 0xA8 true) (receiving .header (some (header [3, 1, 0])))).cp.receiver = .trailer ∧
      (got (.characterReceived 0xA9 true) (receiving .header (some (header [3, 1, 0])))).cp.badHeaders = 1 := by
  decide +kernel

/-- Node 4 of the worked exchange of 7.12, with these last_seq and committed_seq. -/
def node4 (last committed pending : Nat) : Node :=
  { Node.start with
    enabled := true, classes := 0x3F, lastSeq := some last, committedSeq := some committed, pending := pending }

/-- A record of class 2 with 10 payload bytes, whose CRC is right. -/
def sent (seq age : Nat) (res : Resolution) : BurstRecord :=
  { cls := 2, nodeSeq := seq, age := age, payload := bytes 10
    crc := (crc16 ([0x0A, 0x02, byte seq] ++ be16 age ++ bytes 10)).toNat
    stamp := { seconds := 0, ticks := 0 }, unset := false, res := res }

/-- A burst of node 4 with these records. -/
def burst (num : Byte) (verified : Bool) (ack : AckState) (l : List BurstRecord) : Burst :=
  { node := 4, num := num, count := l.length, records := l, verified := verified
    arrival := { seconds := 2000, ticks := 1000 }, windowLen := 5, beatsLeft := none, ack := ack }

/-- The end marker of burst 7 is awaited at 2,000:1,000 (7.12). -/
def awaiting : State :=
  let s := receiving .trailer (some (burstOf 3 3 (some 0) []))
  { s with
    tb := Tb.atStart 2000 1000 true 0
    cp := { s.cp with
      nodes := s.cp.nodes.set 4 (node4 19 19 0)
      slots := s.cp.slots.set 0 (some (burst 7 false .notDue [sent 20 96 .received, sent 21 64 .received, sent 22 32 .received])) } }

/-- Verification of burst 7: stamps 2,000:904, :936, :968, last 22, pending 3, window 5 (7.12). -/
theorem test_character_end_marker :
    let t := got (.characterReceived 0x9C true) awaiting
    ((t.cp.slots[0]).map (fun b => b.records.map (fun r => r.stamp.ticks))) = some [904, 936, 968] ∧
      (t.cp.nodes[4]).lastSeq = some 22 ∧ (t.cp.nodes[4]).pending = 3 ∧ (t.cp.nodes[4]).bursts = 1 ∧
      ((t.cp.slots[0]).bind Burst.beatsLeft) = some 5 ∧ t.cp.receiver = .idle := by decide +kernel

/-- A gap inside a burst: the slot is released and CAPTURE latched (R138); in IDLE it is nothing. -/
theorem test_gap_timeout :
    let t := got .gapTimeout { awaiting with cp := { awaiting.cp with receiver := .records } }
    t.cp.slots[0] = none ∧ t.cp.framing = 1 ∧ t.cp.receiver = .waitIdle ∧ t.hp.events = 0x08 ∧
      (got .gapTimeout (receiving .idle none)).cp.framing = 0 := by decide +kernel

theorem test_idle_time_elapsed :
    (got .idleTimeElapsed (receiving .waitIdle none)).cp.receiver = .idle := by decide +kernel

/-- `run` in this receiver state, with node 4 and these slots. -/
def slots (st : Receiver) (n : Node) (a b : Option Burst) : State :=
  let s := receiving st none
  { s with cp := { s.cp with
      nodes := s.cp.nodes.set 4 n, slots := (s.cp.slots.set 0 a).set 1 b
      order := (if a.isSome then [0] else []) ++ (if b.isSome then [1] else []) } }

/-- Burst 7 with its window over: 20 committed, 21 and 22 queued (7.12). -/
def windowOver (st : Receiver) : State :=
  slots st (node4 24 20 4)
    (some { burst 7 true .notDue [sent 20 96 .committed, sent 21 64 .queued, sent 22 32 .queued] with beatsLeft := some 0 }) none

theorem test_acknowledge_window_end :
    let t := got (.acknowledgeWindowEnd 0) (windowOver .idle)
    t.cp.receiver = .acking ∧ t.cp.resume = .idle ∧ t.cp.queue = [.slot 0] ∧
      (got (.acknowledgeWindowEnd 0) (windowOver .disabled)).cp.acksDropped = 1 := by decide +kernel

/-- The frame of burst 7: STORED, TAKEN, TAKEN, watermark 20 (7.12). -/
theorem test_ack_frame_start :
    ((got .ackFrameStart (got (.acknowledgeWindowEnd 0) (windowOver .idle))).cp.frame.map (fun f => f.bytes.take 9)) =
      some [0x6A, 4, 7, 3, 0, 1, 1, 1, 20] := by decide +kernel

theorem test_ack_frame_end :
    let t := got .ackFrameEnd (got .ackFrameStart (got (.acknowledgeWindowEnd 0) (windowOver .idle)))
    t.cp.receiver = .idle ∧ t.cp.acksSent = 1 ∧ t.cp.queue = [] ∧ (t.cp.slots[0]).map Burst.ack = some .sent := by decide +kernel

/-- Record 22 of the resent burst 7 commits: all resolved, the acknowledge falls due (7.12). -/
def committing (st : Receiver) (ack : AckState) (stopped old : Bool) : State :=
  let s := slots st (node4 22 21 1) (some (burst 7 true ack [sent 20 96 .duplicate, sent 21 64 .committed, sent 22 32 .inAppend])) none
  { s with cp := { s.cp with notices := [{ notice := { captured 522 4 with nodeSeq := 22 }, slot := 0, place := 2, oldJournal := old }], stopped := stopped } }

theorem test_cp_commit_notice :
    let t := got .cpCommitNotice (committing .idle .notDue false false)
    (t.cp.nodes[4]).committedSeq = some 22 ∧ (t.cp.nodes[4]).pending = 0 ∧ t.cp.queue = [.slot 0] ∧
      t.cp.receiver = .acking ∧ (got .cpCommitNotice (committing .idle .sent false false)).cp.slots[0] = none := by decide +kernel

/-- A notice of the journal before a FORMAT moves no watermark (R155; log 18). -/
theorem test_cp_commit_notice_old :
    let t := got .cpCommitNotice (committing .idle .notDue false true)
    (t.cp.nodes[4]).committedSeq = some 21 ∧ (t.cp.nodes[4]).stored = 1 ∧ t.cp.queue = [.slot 0] := by decide +kernel

/-- The refusal of 7.12: record 21 refused, 22, 23 and 24 dropped. -/
def refusing (st : Receiver) : State :=
  let s := slots st (node4 24 20 4)
    (some (burst 7 true .sent [sent 20 96 .committed, sent 21 64 .inAppend, sent 22 32 .queued]))
    (some { burst 8 true .notDue [sent 23 0 .queued, sent 24 0 .queued] with beatsLeft := some 3 })
  { s with
    cp := { s.cp with refusal := some { slot := 0, place := 1, code := .held } }
    au := { s.au with record := some { InProgress.take (Record.plain .capture 2 (bytes 10)) (.capture 0 1) with
      phase := .refused .held } } }

/-- last and pending 20 and 0, lost 4, slot 0 free, burst 8's acknowledge due, CAPTURE (7.12). -/
theorem test_refusal_notice :
    let t := got .refusalNotice (refusing .idle)
    (t.cp.nodes[4]).lastSeq = some 20 ∧ (t.cp.nodes[4]).pending = 0 ∧ (t.cp.nodes[4]).lost = 4 ∧ t.cp.slots[0] = none ∧
      t.cp.queue = [.slot 1] ∧ t.cp.receiver = .acking ∧ t.hp.events = 0x08 ∧ t.au.record = none := by decide +kernel

/-- CAPTURE_SET that enables the port, and one with a gap timeout of 1 (R152). -/
theorem test_capture_set :
    let t := got .captureSet (inCp (cmd 0x60 [1, 3, 2, 9] []) run)
    t.cp.receiver = .waitIdle ∧ t.cp.rate = 3 ∧ t.cp.window = 9 ∧ t.js.copyWrite.isSome = true ∧
      answers (got .captureSet (inCp (cmd 0x60 [1, 3, 1, 9] []) run)) = [(0x14, [])] := by decide +kernel

/-- NODE_SET with FORGET, and one that permits class 12 (R153). -/
theorem test_node_set :
    let s := slots .idle (node4 22 22 0) none none
    ((got .nodeSet (inCp (cmd 0x61 [4, 0, 0, 4, 1] []) s)).cp.nodes[4]).lastSeq = none ∧
      answers (got .nodeSet (inCp (cmd 0x61 [4, 1, 0x10, 0] []) s)) = [(0x14, [])] := by decide +kernel

/-- NODE_READ of node 4, part 0, and of the port (R154, 10.3). -/
theorem test_node_read :
    let s := slots .idle (node4 22 21 1) none none
    answers (got .nodeRead (inCp (cmd 0x62 [4, 0, 0] []) s)) = [(0x00, [1, 0, 0x3F, 3, 22, 21, 1, 0, 0])] ∧
      answers (got .nodeRead (inCp (cmd 0x62 [8, 0, 0] []) s)) = [(0x00, [2, 1, 0, 4, 5, 0, 0])] := by decide +kernel

theorem witness_AheadByNodeSequence :
    let r := sent 20 96 .received
    r.checkOk = true ∧ (node4 19 19 0).enabled = true ∧ r.cls < 12 ∧ (node4 19 19 0).classes.getLsbD r.cls = true ∧
      ((255 : Nat) < 256 ∧ (128 : Nat) < 129) := by decide +kernel

theorem witness_BurstBytesAreTaken :
    (∀ st ∈ [Receiver.disabled, .acking, .waitIdle, .idle, .header],
      (receiving st none).cp.receiver = st ∧ (receiving st none).cp.queue = []) ∧
    (receiving .header (some (header [7, 9]))).cp.reception = some (header [7, 9]) ∧ (header [7, 9]).header.length < 3 ∧
    (∀ k ∈ [(0 : Byte), 6], (header [7, 9, k]).header = [7, 9, k] ∧ (7 : Byte).toNat ≤ 7 ∧ k.toNat ≤ 6 ∧
      crc8 [7, 9, k] = crc8 [7, 9, k]) ∧
    ¬ (8 : Byte).toNat ≤ 7 ∧ ¬ (7 : Byte).toNat ≤ 6 ∧
    run.cp.slots[0] = none ∧ awaiting.cp.slots[0] ≠ none ∧ awaiting.cp.slots[1] = none ∧
    ((slots .header (node4 0 0 0) (some queuedBurst) (some queuedBurst)).cp.slots[1] ≠ none) ∧
    (∀ st ∈ [Receiver.records, .discard],
      let r := burstOf 2 1 (some 0) []
      (receiving st (some r)).cp.reception = some r ∧ (receiving st (some r)).cp.receiver = st ∧ r.complete < r.count) ∧
    (∀ n ∈ [(0 : Byte), 232], let l := (burstOf 2 1 none []).current ++ [n];
      (l.getD 0 0).toNat ≤ 232 ∧ l.length < 7 + (l.getD 0 0).toNat) ∧
    (let l := (burstOf 2 1 none (List.replicate 6 0)).current ++ [0]; l.length = 7 + (l.getD 0 0).toNat) ∧
    (burstOf 2 1 none []).slot = none ∧ (burstOf 2 1 (some 0) []).slot = some 0 ∧ awaiting.cp.slots[(0 : Fin 2)] ≠ none := by
  decide +kernel

theorem witness_EndMarkerResolvesBurst :
    (let b := burst 7 false .notDue [sent 20 96 .received, sent 21 64 .received, sent 22 32 .received];
      awaiting.cp.receiver = .trailer ∧ awaiting.cp.reception = some (burstOf 3 3 (some 0) []) ∧
        (burstOf 3 3 (some 0) []).slot = some 0 ∧ awaiting.cp.slots[(0 : Fin 2)] = some b ∧ b.ack = .notDue ∧
        awaiting.cp.queue = []) ∧
    (let s := receiving .trailer (some (burstOf 0 0 none []));
      s.cp.reception = some (burstOf 0 0 none []) ∧ s.cp.receiver = .trailer ∧ (burstOf 0 0 none []).slot = none ∧
        (burstOf 0 0 none []).count = 0) ∧
    (∀ k ∈ [1, 6], let s := receiving .discard (some (burstOf k k none []));
      s.cp.reception = some (burstOf k k none []) ∧ s.cp.receiver = .discard ∧ (burstOf k k none []).count ≠ 0 ∧
        (burstOf k k none []).complete = (burstOf k k none []).count) := by decide +kernel

theorem witness_BurstBytesAreTaken_failures :
    (∀ st ∈ [Receiver.header, .records, .trailer, .discard],
      (receiving st (some (burstOf 2 1 (some 0) []))).cp.reception = some (burstOf 2 1 (some 0) []) ∧
        (receiving st (some (burstOf 2 1 (some 0) []))).cp.receiver = st) ∧
    (burstOf 2 1 none []).complete < (burstOf 2 1 none []).count ∧ (burstOf 2 2 none []).count ≤ (burstOf 2 2 none []).complete ∧
    (burstOf 2 1 none []).current = [] ∧ (0x9D : Byte) ≠ 0x9C ∧ 232 < (233 : Byte).toNat ∧
    (∀ st ∈ [Receiver.disabled, .waitIdle, .idle, .acking],
      (receiving st none).cp.receiver = st ∧ (receiving st none).cp.queue = []) := by decide +kernel

/-- A disabling CAPTURE_SET that waits for the end of the frame being sent, the first of these acknowledges. -/
def settingWaits (on : Byte) (queue : List Ack) : State :=
  let s := receiving .acking none
  { s with cp := { s.cp with
      queue := queue, frame := some { bytes := frameBytes 4 7 [] none, slot := none }
      slot := some { entry := cmd 0x60 [on, 1, 2, 3] [], phase := .frameWait } } }

/-- R152: it is applied at the frame's end, and the acknowledge still in the queue is dropped. -/
theorem test_capture_set_waits :
    let t := got .ackFrameEnd (settingWaits 0 [.direct 4 7 [], .direct 4 8 []])
    t.cp.receiver = .disabled ∧ t.cp.acksSent = 1 ∧ t.cp.acksDropped = 1 ∧ t.cp.rate = 1 ∧ t.js.copyWrite.isSome = true := by
  decide +kernel

theorem witness_AcknowledgesAreSent :
    (∀ on ∈ [(0 : Byte), 1], let s := settingWaits on [.direct 4 7 []];
      s.cp.receiver = .acking ∧ s.cp.frame.map Frame.slot = some none ∧ s.cp.queue = [.direct 4 7 []] ∧ s.cp.reception = none ∧
        s.cp.slot = some { entry := cmd 0x60 [on, 1, 2, 3] [], phase := .frameWait }) ∧
    ((settingWaits 0 [.direct 4 7 [], .direct 4 8 []]).cp.queue = [.direct 4 7 [], .direct 4 8 []] ∧
      (cmd 0x60 [0, 1, 2, 3] []).param 0 ≠ 1) ∧
    (let b : Burst :=
      { burst 7 true .notDue [sent 20 96 .committed, sent 21 64 .queued, sent 22 32 .queued] with beatsLeft := some 0 };
      (∀ st, (windowOver st).cp.slots[(0 : Fin 2)] = some b ∧ (windowOver st).cp.receiver = st) ∧ b.verified = true ∧
        b.beatsLeft = some 0 ∧ b.ack = .notDue) ∧
    (let s := got (.acknowledgeWindowEnd 0) (windowOver .idle);
      s.cp.receiver = .acking ∧ s.cp.frame = none ∧ s.cp.queue = .slot 0 :: [] ∧ s.cp.slots[(0 : Fin 2)] ≠ none ∧ s.cp.slot = none ∧
        (got .ackFrameStart s).cp.receiver = .acking ∧ (got .ackFrameStart s).cp.frame ≠ none ∧
        (got .ackFrameStart s).cp.queue = .slot 0 :: [] ∧ (got .ackFrameStart s).cp.slot = none) ∧
    (let s := got (.characterReceived 0x9C true) (receiving .trailer (some (burstOf 0 0 none [])));
      s.cp.receiver = .acking ∧ s.cp.frame = none ∧ s.cp.queue = .direct 4 7 [] :: [] ∧
        (got .ackFrameStart s).cp.frame.map Frame.slot = some none) := by
  refine ⟨by decide +kernel, by decide +kernel, ⟨fun st => ⟨?_, rfl⟩, by decide +kernel⟩, by decide +kernel⟩
  cases st <;> decide +kernel

theorem witness_CommitNoticeMovesWatermark :
    (∀ st ∈ [Receiver.idle, .disabled, .records], ∀ ack ∈ [AckState.notDue, .sent, .dropped, .due],
      let b := burst 7 true ack [sent 20 96 .duplicate, sent 21 64 .committed, sent 22 32 .inAppend]
      let s := committing st ack false false
      s.cp.notices.map (fun n => (n.slot, n.place, n.oldJournal)) = [(0, 2, false)] ∧ s.cp.stopped = false ∧ s.cp.slots[(0 : Fin 2)] = some b ∧
        b.records[2]? = some (sent 22 32 .inAppend) ∧ s.cp.receiver = st) ∧
    (committing .idle .notDue true false).cp.stopped = true := by decide +kernel

theorem witness_RefusalRollsBackNode :
    ∀ st ∈ [Receiver.idle, .disabled, .records],
      let s := refusing st
      let b := burst 7 true .sent [sent 20 96 .committed, sent 21 64 .inAppend, sent 22 32 .queued]
      s.cp.refusal = some { slot := 0, place := 1, code := .held } ∧ s.cp.notices = [] ∧ s.cp.stopped = false ∧
        s.cp.slots[(0 : Fin 2)] = some b ∧ b.records[1]? = some (sent 21 64 .inAppend) ∧
        (sent 21 64 .inAppend).res = .inAppend ∧
        s.au.record.any (fun q => q.origin == .capture 0 1 && q.phase == .refused .held) = true ∧
        s.au.holdup = .idle ∧ s.au.formatAsked = false ∧
        (∀ j : Fin 2, (s.cp.slots[j]).any (fun c => c.verified) = true → j ∈ s.cp.order) ∧ s.cp.order.Nodup := by decide +kernel

theorem witness_CaptureCommandsAnswer :
    (∀ e, (inCp e run).cp.slot = some { entry := e, phase := .dispatched }) ∧
    (∀ on ∈ [(0 : Byte), 1], let e := cmd 0x60 [on, 3, 2, 1] [];
      e.opcode = 0x60 ∧ e.param 0 ≤ 1 ∧ e.param 1 ≤ 3 ∧ 2 ≤ e.param 2 ∧ e.param 3 ≠ 0 ∧ e.payload = []) ∧
    (1 < (cmd 0x60 [2, 0, 2, 1] []).param 0 ∧ 3 < (cmd 0x60 [1, 4, 2, 1] []).param 1 ∧
      (cmd 0x60 [1, 3, 1, 1] []).param 2 < 2 ∧ (cmd 0x60 [1, 3, 2, 0] []).param 3 = 0) ∧
    (run.cp.frame = none ∧ run.cp.queue = [] ∧
      (got (.characterReceived 0x9C true) (receiving .trailer (some (burstOf 0 0 none [])))).cp.queue = [.direct 4 7 []] ∧
      (got (.acknowledgeWindowEnd 0) (windowOver .idle)).cp.queue = [.slot 0]) ∧
    (let s := got .ackFrameStart (got (.characterReceived 0x9C true) (receiving .trailer (some (burstOf 0 0 none []))));
      s.cp.receiver = .acking ∧ s.cp.frame ≠ none) ∧
    (7 < (cmd 0x61 [8] []).param 0 ∧ 1 < (cmd 0x61 [7, 2] []).param 1 ∧ 4095 < (cmd 0x61 [7, 1, 0x10, 0] []).param16 2 ∧
      1 < (cmd 0x61 [7, 1, 0x0F, 0xFF, 2] []).param 4) ∧
    (∀ n : Fin 8, let e := cmd 0x61 [byte n.val, 1, 0x0F, 0xFF, 1] [];
      e.opcode = 0x61 ∧ e.param 0 = n.val ∧ e.param 1 ≤ 1 ∧ e.param16 2 ≤ 4095 ∧ e.param 4 ≤ 1 ∧ e.payload = []) ∧
    (8 < (cmd 0x62 [9] []).param 0 ∧ 1 < (cmd 0x62 [8, 2] []).param 1 ∧ 1 < (cmd 0x62 [8, 1, 2] []).param 2) ∧
    (∀ n : Fin 9, ∀ k c : Fin 2, let e := cmd 0x62 [byte n.val, byte k.val, byte c.val] [];
      e.opcode = 0x62 ∧ e.payload = [] ∧ e.param 2 ≤ 1 ∧ e.param 0 = n.val ∧ e.param 1 = k.val) :=
  ⟨fun _ => rfl, by decide +kernel⟩

/-- `run` with these commands waiting, at the end of a control block write. -/
def durable (js : Option JsPhase) (cp : Option CpPhase) (pending : Bool) : State :=
  { requestCopy run with
    js := { (requestCopy run).js with
      copyPending := pending, slot := js.map (fun p => { entry := cmd 0x20 [1] [], phase := p }) }
    cp := { run.cp with slot := cp.map (fun p => { entry := { cmd 0x60 [1, 1, 2, 3] [] with tag := 9 }, phase := p }) } }

/-- FORMATTED's write step, with FORMAT waiting. -/
def formattedWriting (w : Option CopyWait) : State :=
  let s := got .arbiterChoice { run with au := { run.au with systemLane := [SysRequest.make .formatted 1 (be32 0)] } }
  { s with js := { s.js with slot := some { entry := cmd 0x20 [1] [], phase := .formatEnding false w } } }

/-- R44 step 11: DONE when both have ended, in either order; a CAPTURE_SET's DONE at its write's end (R152). -/
theorem test_durable :
    answers (got .controlBlockWriteEnd (durable (some (.formatEnding true (some .thisWrite))) none false)) = [(0x00, [])] ∧
      answers (got .controlBlockWriteEnd (durable (some (.formatEnding false (some .thisWrite))) none false)) = [] ∧
      answers (got .writeStepEnd (formattedWriting none)) = [(0x00, [])] ∧
      answers (got .writeStepEnd (formattedWriting (some .thisWrite))) = [] ∧
      answers (got .controlBlockWriteEnd (durable none (some (.writeWait .thisWrite)) false)) = [(0x00, [])] := by decide +kernel

theorem witness_ControlBlockWritesAlternate_answers :
    (∀ pending : Bool, (durable none none pending).js.copyWrite.isSome = true ∧ (durable none none pending).pc.supply = .run ∧
      (durable none none pending).pc.step = .idle ∧ (durable none none pending).js.copyPending = pending ∧
      (durable none none pending).js.slot = none ∧ (durable none none pending).cp.slot = none) ∧
    (∀ p ∈ [JsPhase.formatEnding true (some .thisWrite), .formatEnding false (some .thisWrite), .policyWait .thisWrite,
        .policyWait .nextWrite], (durable (some p) none false).js.slot = some { entry := cmd 0x20 [1] [], phase := p }) ∧
    (∀ p ∈ [CpPhase.writeWait .thisWrite, .writeWait .nextWrite],
      (durable none (some p) false).cp.slot = some { entry := { cmd 0x60 [1, 1, 2, 3] [] with tag := 9 }, phase := p }) ∧
    (∀ w ∈ [none, some CopyWait.thisWrite], let s := formattedWriting w;
      s.au.record.map (fun r => (r.origin, r.phase)) = some (.system .formatted, .writing) ∧ s.au.holdup = .idle ∧
        s.au.formatAsked = false ∧ s.js.slot = some { entry := cmd 0x20 [1] [], phase := .formatEnding false w }) := by
  decide +kernel

/-! ## The Host Port -/

/-- `run` with these entries in the command queue. -/
def queued (l : List Entry) : State := { run with hp := { run.hp with commands := l } }

/-- DISPATCH of an opcode that no unit carries out (R165), and of a READ_TIME (R164). -/
theorem test_dispatch :
    answers (got .dispatch (queued [cmd 0x70 [] []])) = [(0x17, [])] ∧
      ((got .dispatch (queued [cmd 0x40 [] []])).tb.slot.map TbSlot.entry) = some (cmd 0x40 [] []) := by decide +kernel

/-- A READ_TIME waits behind a SET_TIME (8.11). -/
theorem test_dispatch_waits :
    (got .dispatch { setBack with hp := { setBack.hp with commands := [cmd 0x40 [] []] } }).hp.commands = [cmd 0x40 [] []] := by
  decide +kernel

/-- The status byte of `run` with one response and RSP enabled: response waiting, INT pending, journal READY (10.2). -/
theorem test_status_byte :
    let s := { run with hp := { run.hp with responses := [Response.plain 1 .done []], mask := 1 } }
    (got .statusByte s).hp.tx.map Tx.status = some 0x34 := by decide +kernel

/-- An APPEND entry is accepted; the same tag again is rejected TAG; a wrong length is rejected LENGTH (R162). -/
theorem test_cmd :
    let bytes : List Byte := [0, 12, 0x11, 4, 1, 0, 0, 0, 0, 0, 0xAA, 0xBB, 0xCC, 0xDD]
    let t := got (.cmd bytes) run
    t.hp.outstanding = 1 ∧ t.hp.lastAccepted = true ∧ (got (.cmd bytes) t).hp.reject = .tag ∧
      (got (.cmd (bytes.drop 1)) run).hp.reject = .length := by decide +kernel

/-- `run` in an RSP transaction that chose the response to tag 1, of two. -/
def reading : State :=
  let s : State := { run with hp := { run.hp with
    responses := [Response.plain 1 .done [], Response.plain 2 .done []], tags := [1, 2], outstanding := 2 } }
  got .rsp (got .statusByte s)

theorem test_rsp : reading.hp.tx.map Tx.port = some (.rsp (some (Response.plain 1 .done []))) := by decide +kernel

/-- Ten bytes pop nothing; sixteen pop the entry and its tag (8.11). -/
theorem test_rsp_pop :
    (got (.rspPop 10) reading).hp.outstanding = 2 ∧ (got (.rspPop 16) reading).hp.outstanding = 1 ∧
      (got (.rspPop 16) reading).hp.tags = [2] := by decide +kernel

/-- `run` with the window bytes 0, 1, ... 255 in cursor 0. -/
def windowed : State :=
  withCursor0 { forwardAt 1 with window := (List.range 256).map byte, heldWindow := some [0xC3] } run

/-- The read pointer goes round after byte 255; cursor 4 opens no window (R170). -/
theorem test_win :
    let s := got (.win 0 0xFE) (got .statusByte { windowed with cu := { windowed.cu with
      cursors := windowed.cu.cursors.map (fun c => { c with heldWindow := none }) } })
    misoByte s 1 = 0 ∧ misoByte s 2 = 0xFE ∧ misoByte s 4 = 0x00 ∧ misoByte s 5 = 0x01 ∧
      misoByte (got (.win 4 7) (got .statusByte run)) 5 = 0 := by decide +kernel

/-- A held change takes effect at the rise of CS# (R171). -/
theorem test_win_end : ((got .winEnd windowed).cu.cursors[0]).window = [0xC3] := by decide +kernel

/-- The snapshot of `run` (R172, 10.3). -/
theorem test_sts :
    (List.range 16).map (misoByte (got .sts (got .statusByte run))) =
      [0x41, 0, 0, 0, 0, 0, 1, 0, 0, 0, 1, 0xF5, 0, 0, 3, 0xE8] := by decide +kernel

/-- ACK clears the members named but not RSP (R173); one byte changes nothing. -/
theorem test_ack :
    let s := { run with hp := { run.hp with events := 0xA2, responses := [Response.plain 1 .done []] } }
    (got (.ack [0xFF, 0x83]) s).hp.flags = 0x21 ∧ (got (.ack [0xFF]) s).hp.flags = 0xA3 := by decide +kernel

/-- MASK enables WATCH, already latched: INT# is asserted at once (R174). -/
theorem test_mask :
    let s := { run with hp := { run.hp with events := 0x02 } }
    s.hp.intAsserted = false ∧ (got (.mask [0, 0x02]) s).hp.intAsserted = true ∧ (pins (got (.mask [0, 0x02]) s)).int = .low := by
  decide +kernel

/-- Port byte 60h is counted; the counter stays at 255 (R159). -/
theorem test_unknown_port :
    (got (.unknownPort 0x60) run).hp.unknownPorts = 1 ∧
      (got (.unknownPort 0x60) { run with hp := { run.hp with unknownPorts := 255 } }).hp.unknownPorts = 255 := by decide +kernel

theorem witness_DispatchHandsHeadToUnit :
    (∀ o ∈ [(0x10 : Byte), 0x11, 0x20, 0x23, 0x30, 0x36, 0x40, 0x42, 0x50, 0x52, 0x60, 0x62],
      (queued [cmd o [] []]).hp.commands = cmd o [] [] :: []) ∧
    232 < (cmd 0x11 [0] (bytes 233)).payload.length ∧ ¬ 232 < (cmd 0x11 [0] (bytes 232)).payload.length ∧
    15 < (cmd 0x11 [16] []).param 0 ∧ 12 ≤ (cmd 0x11 [12] []).param 0 ∧ ¬ 12 ≤ (cmd 0x11 [11] []).param 0 ∧
    2 ≤ crowded.au.hostLane.length := by decide +kernel

/-- The second place taken, an APPEND that fails its test still waits; with a place free it is answered and takes none (R47). -/
theorem test_append_at_dispatch :
    let bad := cmd 0x11 [12] []
    (got .dispatch { crowded with hp := { crowded.hp with commands := [bad] } }).hp.commands = [bad] ∧
      (got .dispatch (dispatched bad)).au.hostLane = [] ∧ answers (got .dispatch (dispatched bad)) = [(0x13, [])] := by
  decide +kernel

theorem witness_HostTransactionsMoveTheQueues :
    reading.pc.supply.powered = true ∧
      ((got .statusByte reading).hp.tx.map Tx.port) = some .statusOnly ∧
      (∃ x, reading.hp.tx = some { status := x, port := .rsp (some (Response.plain 1 .done [])) } ∧
        reading.hp.responses = Response.plain 1 .done [] :: [Response.plain 2 .done []]) ∧
      ((got .rsp (got .statusByte run)).hp.tx.map Tx.port) = some (.rsp none) :=
  ⟨by decide +kernel, by decide +kernel, ⟨_, rfl, rfl⟩, by decide +kernel⟩

/-- R159: the port bytes; the checked set of WellFormed is the one `portOf` knows. -/
theorem test_ports :
    ∀ p : Fin 256, (Sys2Proof.Machine.portOf (byte p.val) = none ↔ byte p.val ∉ Sys2Proof.definedPorts) := by decide +kernel

theorem witness_PortsChooseAtTheirByte :
    run.pc.supply.powered = true ∧ (got .statusByte run).hp.tx.map Tx.port = some .statusOnly ∧
      (∀ p ∈ [(0x00 : Byte), 0x11, 0x52, 0xFF], p ∉ [(0x10 : Byte), 0x20, 0x30, 0x40, 0x50, 0x51]) ∧
      (∀ c : Fin 4, (got (.win (byte c.val) 255) (got .statusByte run)).hp.tx.map Tx.port = some (.win (some c) 255)) ∧
      (got (.win 4 255) (got .statusByte run)).hp.tx.map Tx.port = some (.win none 255) ∧
      (got .sts (got .statusByte run)).hp.tx.map Tx.port = some (.sts (snapshotOf run)) := by decide +kernel

/-- R202: MISO is driven while CS# is low, across a RESET# too, and not after the rise that ends an STS transaction. -/
theorem test_miso :
    let low := got .sts (got .statusByte run)
    let cut : Cut := { record := 0, zeroed := 0, copy := .torn, repairs := 0 }
    (pins low).miso = .data ∧ (pins (got .winEnd low)).miso = .highImpedance ∧
      (pins (got (.resetAssert cut) low)).miso = .highImpedance ∧
      (pins (got .resetRelease (got (.resetAssert cut) low))).miso = .data := by decide +kernel

theorem witness_AckAndMaskRuleInt : run.pc.supply.powered = true ∧ 2 ≤ ([0, 1] : List Byte).length ∧ run.hp.offline = false := by
  decide +kernel

/-! ## The Power Controller -/

/-- The lanes and slot of the orderly stop of 9.2: one SILENT request, one waiting APPEND, two queued slot records. -/
def laden (s : State) : State :=
  let q : BurstRecord := sent 20 96 .queued
  let s := withBurst { queuedBurst with node := 1, count := 2, records := [q, { q with nodeSeq := 21 }] } s
  { s with au := { s.au with
      systemLane := [SysRequest.make .silent 3 [0, 0, 0, 0]]
      hostLane := s.au.hostLane ++ [{ entry := cmd 0x11 [2] sample, state := .waiting }] } }

/-- The orderly stop of 9.2: with record 501 in progress the sequence waits; its end discards 1 + 1 + 2 and POWER_DOWN is
written next, as 502, with the value 4; no response is posted. -/
theorem test_holdup :
    let t := got (.holdup (.falls 0)) (laden writing)
    let u := got .writeStepEnd t
    t.pc.supply = .holdup ∧ t.pc.discarded = 2 ∧ t.hp.offline = true ∧ t.pc.step = .closingAu ∧
      u.au.record.map (fun r => (r.seq, r.data.payload)) = some (502, [3, 0, 0, 4]) ∧ u.hp.responses = [] ∧
      (got .writeStepEnd u).pc.step = .auEnded := by decide +kernel

/-- R144, R182: the burst of queued records leaves its slot free; one with a record in append keeps it, its acknowledge dropped
(log 42). A boundary event not taken is dropped (log 39). -/
theorem test_holdup_clears :
    let t := got (.holdup (.falls 0)) (laden { writing with wu := { writing.wu with boundaries := 1 } })
    let u := got (.holdup (.falls 0)) { refusing .idle with au := { (refusing .idle).au with record := writing.au.record } }
    t.cp.slots[0] = none ∧ t.cp.order = [] ∧ t.wu.boundaries = 0 ∧ u.cp.slots[1] = none ∧
      (u.cp.slots[0]).map (fun b => (b.ack, b.records.map BurstRecord.res)) =
        some (.dropped, [.committed, .inAppend, .dropped]) ∧ u.cp.order = [0] := by decide +kernel

/-- R181: FORMAT stopped after step 6 of its third phase: the journal stays FORMATTING, segment 0 is FILLING, numbering has
restarted, the watermarks have not gone, and no FORMATTED record waits. -/
theorem test_holdup_in_format :
    let s := { lastClearing with cp := { lastClearing.cp with nodes := lastClearing.cp.nodes.set 4 (node4 22 21 1) } }
    let t := got (.holdup (.falls 3)) s
    t.js.journal = .formatting ∧ (t.js.index[0]).state = .filling ∧ t.au.nextSeq = .value 1 ∧
      (t.cp.nodes[4]).committedSeq = some 21 ∧ t.au.systemLane = [] ∧ t.pc.step = .auEnded ∧
      (got (.holdup (.falls 4)) s).cp.nodes[4].committedSeq = none := by decide +kernel

/-- A state whose AU has ended in HOLDUP, with a clearing of segment 1 under way. -/
def auDone : State :=
  { run with
    pc := { run.pc with supply := .holdup, step := .auEnded }
    js := { run.js with clearing := some 1 }, hp := Hp.start, mem := Memory.writeCells run.mem [(4000, 0xEE), (4088, 0xEE)] }

/-- AU_ENDED: the clearing is abandoned part way (its last unit zeroed, unit 244 not), and the final write goes to the copy not
written last, with hint 501 (R37, R184). -/
theorem test_au_ended :
    let t := got (.auEnded 1) auDone
    t.pc.step = .writing .thisWrite ∧ t.js.clearing = none ∧ t.mem.read 4000 = 0xEE ∧ t.mem.read 4088 = 0x00 ∧
      t.js.copyWrite.map (fun w => (w.target, w.values.hint)) = some (.a, 501) := by decide +kernel

/-- The cut of an abrupt stop that leaves these bytes of the record. -/
def cutAt (n : Nat) : Cut := { record := n, zeroed := 0, copy := .torn, repairs := 0 }

/-- RESET# during the write of 501, with the 8 bytes of the header rewrite (R24) and 1 byte of the record written: the place
has its OPEN state byte (R187); with the 8 bytes alone it is still FREE. -/
theorem test_reset_assert :
    let t := got (.resetAssert (cutAt 9)) writing
    t.pc.supply = .reset ∧ placeState t.mem 0 1 = .opened ∧
      placeState (got (.resetAssert (cutAt 8)) writing).mem 0 1 = .free ∧ t.au = Au.start ∧ t.tb.seconds = 1000 ∧ t.pc.latch = false := by
  decide +kernel

theorem test_reset_release : (got .resetRelease (got (.resetAssert (cutAt 0)) run)).pc.supply = .start := by decide +kernel

theorem test_vmain_lost :
    let t := got (.vmainLost (cutAt 0)) run
    t.pc.supply = .retain ∧ t.pc.latch = false ∧ t.tb.isSet = true ∧ (got .vmainRise t).pc.supply = .start := by
  decide +kernel

/-- Without VBAT the loss of VMAIN sets the latch (R179); VBAT_RISE then brings RETAIN (R178). -/
theorem test_vbat :
    let t := got (.vmainLost (cutAt 0)) (got .vbatFall run)
    (got .vbatFall run).pc.supply = .run ∧ t.pc.supply = .off ∧ t.pc.latch = true ∧ t.pc.reason = .backupLost ∧
      (got .vbatRise t).pc.supply = .retain ∧ (got .vbatRise t).pc.latch = true := by
  refine ⟨by decide +kernel, rfl, rfl, rfl, rfl, rfl⟩

/-- The first START of a new part begins cold initialisation (R196). -/
theorem test_retention_latch_examine :
    let t := got .retentionLatchExamine State.reset
    t.pc.supply = .coldInit ∧ t.js.clearing = some 0 ∧ t.au.nextSeq = .value 1 := by decide +kernel

/-- The units of segment 0 after 501 COMMITTED and 502 COMMITTED with header check 0000h, as in 9.7. -/
def torn : State :=
  let two := got .writeStepEnd (got .arbiterChoice (inLane (cmd 0x11 [3] sample) one))
  { two with
    mem := Memory.writeCells two.mem [(unitAddr 0 5 + 20, 0x00), (unitAddr 0 5 + 21, 0x00)]
    copyA := { ControlCopy.bad with generation := 1204, hint := 501, checkOk := true }
    pc := { two.pc with supply := .recover, chosen := .a, scanning := true } }

/-- The recovery of 9.7 in small: 502 is voided for a bad check, the next number is 503, the cause ABRUPT, copy A. -/
theorem test_recovery_scan_end :
    let t := got .recoveryScanEnd torn
    placeState torn.mem 0 5 = .committed ∧ (recoveryNow torn).repairs.head? = some (40, 0x66) ∧
      t.au.nextSeq = .value 503 ∧ t.au.fillPoint = 9 ∧ t.js.head = 0 ∧ t.js.used = 1 ∧
      t.au.systemLane = [{ kind := .recovered, payload := [2, 2, 0, 1, 0, 1, 0] }] := by decide +kernel

/-- The end of the final write takes the J64 to START when VMAIN still holds (R184 step 7). -/
def finalWrite : State :=
  { auDone with
    pc := { auDone.pc with step := .writing .thisWrite }
    js := { auDone.js with copyWrite := some { target := .a, values := { ControlCopy.bad with checkOk := true } } } }

theorem witness_HoldupClosesTheJournal :
    (run.pc.supply = .run ∧ writing.pc.supply = .run ∧ writing.au.record ≠ none ∧ run.js.slot = none) ∧
    (let s := laden (readyFor 501 252);
      s.pc.supply = .run ∧ s.au.record = none ∧ s.js.journal = .ready ∧ s.au.nextSeq = .value 501 ∧ s.au.fillPoint = 252 ∧
        s.mem.wf = true) ∧
    ((exhausted run).pc.supply = .run ∧ (exhausted run).js.journal = .ready ∧ (exhausted run).au.nextSeq = .exhausted) ∧
    (∀ i : Fin 2, (receiving .records (some (burstOf 2 1 (some i) []))).cp.reception = some (burstOf 2 1 (some i) []) ∧
      (burstOf 2 1 (some i) []).slot = some i) ∧
    (lastClearing.pc.supply = .run ∧ lastClearing.js.clearing = some 63 ∧ lastClearing.js.journal = .formatting ∧
      lastClearing.js.slot = some { entry := cmd 0x20 [1] [], phase := .formatClearing 0 } ∧ lastClearing.au.record = none ∧
      (lastClearing.js.index[(1 : Seg)]).state = .prepared) ∧
    (auDone.pc.supply = .holdup ∧ auDone.pc.step = .auEnded) ∧
    finalWrite.pc.supply = .holdup ∧ finalWrite.pc.step = .writing .thisWrite ∧ finalWrite.js.copyWrite.isSome = true ∧
      finalWrite.pc.vmain = true := by decide +kernel

/-- A J64 in this supply state with these supplies. -/
def supplied (p : Supply) (vmain vbat : Bool) : State :=
  { State.reset with pc := { Pc.start with supply := p, vmain := vmain, vbat := vbat } }

/-- PFI falls and rises in START: nothing but the level changes (R180, R185). -/
theorem test_pfi_outside_run :
    let t := got (.holdup (.falls 2)) (supplied .start true true)
    t = { supplied .start true true with pc := { t.pc with pfiLow := true } } ∧
      got (.holdup .rises) t = supplied .start true true := by decide +kernel

theorem witness_SupplyStatesFollowTheTable :
    (supplied .holdup true true).pc.supply ≠ .run ∧
    run.pc.supply.powered = true ∧ (supplied .off false false).pc.supply = .off ∧ (supplied .retain false true).pc.supply = .retain ∧
    (run.pc.vmain = true ∧ run.pc.vbat = true) ∧ ((supplied .run true false).pc.vmain = true ∧ (supplied .run true false).pc.vbat = false) ∧
    (finalWrite.pc.supply.powered = true ∧ finalWrite.js.copyWrite.isSome = true) ∧
    (run.au.record = none ∧ run.js.clearing = none ∧ run.pc.scanning = false ∧ run.js.copyWrite = none) ∧
    ((supplied .reset true true).pc.supply = .reset ∧ (supplied .reset true true).pc.vbat = true) ∧
    (supplied .retain false true).pc.vmain = false ∧ (supplied .retain false true).pc.vbat = true := by decide +kernel

/-- `run` clearing segment 1 with bytes in its last two units. -/
def clearing1 : State := { run with
  js := { run.js with clearing := some 1 }, mem := Memory.writeCells run.mem [(4080, 0xEE), (4088, 0xEE)] }

/-- R187: with one unit zeroed, the last unit of the segment reads 00h and the one before it is as it was. -/
theorem test_clearing_cut :
    let t := got (.resetAssert { cutAt 0 with zeroed := 1 }) clearing1
    t.mem.read 4080 = 0xEE ∧ t.mem.read 4088 = 0x00 := by decide +kernel

theorem witness_AbruptStopsCutWrites :
    writing.pc.supply.powered = true ∧ writing.au.record.map InProgress.phase = some .writing ∧ writing.js.clearing = none ∧
    writing.pc.scanning = false ∧
    (clearing1.pc.supply.powered = true ∧ clearing1.js.clearing = some 1 ∧ clearing1.au.record = none ∧
      clearing1.mem.wf = true ∧ (cutAt 0).zeroed ≤ 256 ∧ ({ cutAt 0 with zeroed := 256 }).zeroed ≤ 256) ∧
    (torn.pc.supply.powered = true ∧ torn.pc.scanning = true ∧ torn.au.record = none ∧ torn.js.clearing = none ∧
      torn.js.copyWrite = none) ∧
    (let s := readyFor 5 1;
      s.mem.wf = true ∧ s.au.record = none ∧ s.pc.supply.powered = true ∧ 1 ≤ s.au.fillPoint ∧ s.js.clearing = none ∧
        s.pc.scanning = false ∧ (got .arbiterChoice s).au.record.map InProgress.phase = some .writing ∧
        (got .arbiterChoice s).au.record.any (fun r => r.writes.length ≤ 1000) = true) := by decide +kernel

/-- A J64 in START with this latch and these copy checks. -/
def starting (latch a b : Bool) : State :=
  { State.reset with
    pc := { Pc.start with latch := latch }
    copyA := { ControlCopy.bad with checkOk := a }, copyB := { ControlCopy.bad with checkOk := b } }

theorem witness_StartChoosesAndRecoveryRebuilds :
    (∀ l a b : Bool, (starting l a b).pc.supply = .start ∧ (starting l a b).pc.resetLow = false ∧
      (starting l a b).pc.pfiLow = false ∧ (starting l a b).pc.latch = l ∧ (starting l a b).copyA.valid = a ∧
      (starting l a b).copyB.valid = b) ∧
    torn.pc.supply = .recover ∧ torn.pc.scanning = true := by decide +kernel

/-- A header with a wrong CRC-8 over segment 0 with record 501 at unit 1, and over empty segment 2 (R189). -/
def badHeaders : Memory := Memory.writeCells one.mem [(5, one.mem.read 5 + 1), (unitAddr 2 0, 0x55), (unitAddr 2 0 + 5, 0x01)]

/-- R189: the torn header over a record reads SEALED with its number, the other FREE; both are rewritten. -/
theorem test_read_header :
    (readHeader badHeaders 0).reading = .sealed ∧ (readHeader badHeaders 0).first = 501 ∧
      (readHeader badHeaders 0).repair = headerCells 0 .sealed 501 ∧ (readHeader badHeaders 2).reading = .free ∧
      (readHeader badHeaders 2).repair = headerCells 2 .free 0 := by decide +kernel

/-- A place after record 501 whose size field is 0, its state OPEN. -/
def unreadable : Memory := Memory.writeCells one.mem [(unitAddr 0 5, 0x3C)]

/-- R190, R191: it is zeroed with what follows, counted voided and not bad, and with zeroed places included no unit is left. -/
theorem test_unreadable :
    let w := walkOf unreadable 0 (readHeader unreadable 0)
    w.voided = 1 ∧ w.bad = 0 ∧ w.fill = 256 ∧ w.kept.length = 1 ∧ w.repairs.length = 251 * 8 := by decide +kernel

/-- The readings in which segments 0 and 63 are SEALED from 900 and 800 on, and `more` besides. -/
def readings (more : Seg → HeaderReading) : Vector HeaderReading 64 := Vector.ofFn (fun g =>
  if g = 0 then { reading := .sealed, first := 900, repair := [] }
  else if g = 63 then { reading := .sealed, first := 800, repair := [] } else more g)

/-- R191: a FILLING segment 1 is F; with none the copy's segment 1 after a SEALED one is opened; with the copy's segment 7
not so placed the segment after the highest SEALED one is. R192: both SEALED segments join. -/
theorem test_settle :
    let free : HeaderReading := { reading := .free, first := 0, repair := [] }
    let none' := readings (fun _ => free)
    let found := readings (fun g => if g = 1 then { reading := .filling, first := 0, repair := [] } else free)
    settleFilling found 7 = (1, .found) ∧ settleFilling none' 1 = (1, .openedEmpty) ∧ settleFilling none' 7 = (1, .openedEmpty) ∧
      usedCount found 1 none = 3 ∧ usedCount found 1 (some 900) = 1 := by decide +kernel

theorem witness_RecoveryReadsTheJournal :
    ((one.mem.bytes 0 8).getD 0 0 = 0x55 ∧ crc8 ((one.mem.bytes 0 8).take 5) = (one.mem.bytes 0 8).getD 5 0) ∧
    (crc8 ((badHeaders.bytes 0 8).take 5) ≠ (badHeaders.bytes 0 8).getD 5 0 ∧ (stored badHeaders 0 1).state = .committed ∧
      headerCheckOk badHeaders 0 1 = true ∧ (stored badHeaders 2 1).state = .free) ∧
    (placeState one.mem 0 5 = .free ∧ placeState writing.mem 0 1 = .opened ∧ placeState one.mem 0 1 = .committed ∧
      readable (stored writing.mem 0 1) 1 = true ∧ headerCheckOk one.mem 0 1 = true ∧ payloadCheckOk one.mem 0 1 = true ∧
      headerCheckOk torn.mem 0 5 = false ∧ placeState unreadable 0 5 = .opened ∧ readable (stored unreadable 0 5) 5 = false ∧
      placeState (Memory.writeCells one.mem [(8, 0x66)]) 0 1 = .void) ∧
    (∀ f ∈ [SegState.filling, .free, .sealed], ((readings (fun _ => { reading := f, first := 0, repair := [] }))[(1 : Seg)]).reading = f ∧
      ((readings (fun _ => { reading := f, first := 0, repair := [] }))[(0 : Seg)]).reading = .sealed) := by decide +kernel

/-- R193, R194: the last record is POWER_DOWN: ORDERLY; node 4's watermark is that of its record with the highest number. -/
theorem test_cause_and_watermark :
    let x : Stored := stored one.mem 0 1
    let down : Stored := { x with source := 2, cls := 12, key := 0x0300 }
    let own (n q : Nat) : Stored := { x with source := 1, node := 4, seq := n, nodeSeq := q }
    causeOf [x, down] = 1 ∧ causeOf [down, x] = 2 ∧ watermarkOf [own 5 20, own 7 22, own 6 21] 4 = some 22 ∧
      watermarkOf [own 5 20] 3 = none := by decide +kernel

theorem witness_RecoverySettlesTheJournal :
    watermarkOf [{ stored one.mem 0 1 with source := 1, node := 4, nodeSeq := 20 }] 4 = some 20 ∧
    ∀ g : Seg, (readHeaders one.mem)[g] = readHeader one.mem g := by
  exact ⟨by decide +kernel, fun g => by simp [readHeaders]⟩

/-- COLD_INIT in the clearing of segment `g`. -/
def coldClearing (g : Seg) : State :=
  let s := got .retentionLatchExamine State.reset
  { s with js := { s.js with clearing := some g } }

/-- R196, R197: the course from the end of segment 63's clearing to the request of COLD_START. -/
theorem test_cold_initialisation :
    let a := got .clearingEnd (coldClearing 63)
    let b := got .controlBlockWriteEnd a
    let c := got .controlBlockWriteEnd b
    (got .clearingEnd (coldClearing 62)).js.clearing = some 63 ∧ (a.js.index[0]).state = .filling ∧ a.js.used = 1 ∧
      b.copyA.generation = 1 ∧ c.copyB.generation = 1 ∧ c.copyB.hint = 1 ∧ c.js.copyWrite = none ∧
      c.au.systemLane = [{ kind := .coldStart, payload := [1, 1] }] := by decide +kernel

/-- R187, R196: RESET# just after segment 63's clearing leaves the first of segment 0's header bytes alone, 55h with no check. -/
theorem test_cold_open_is_cut :
    let t := got (.resetAssert { cutAt 1 with zeroed := 256 }) (coldClearing 63)
    t.mem = [(0, 0x55)] ∧ t.pc.latch = true ∧
      (got (.resetAssert { cutAt 1 with zeroed := 256 }) lastClearing).mem.read 0 = 0x55 := by decide +kernel

theorem witness_AbruptStopsCutWrites_opens :
    (∀ s ∈ [coldClearing 63, lastClearing], s.pc.supply.powered = true ∧ s.js.clearing = some 63 ∧ s.au.record = none ∧
      s.pc.scanning = false) ∧
    (coldClearing 63).pc.supply = .coldInit ∧
    lastClearing.js.slot = some { entry := cmd 0x20 [1] [], phase := .formatClearing 0 } := by decide +kernel

theorem witness_ColdInitialisationRuns :
    (∀ g ∈ [(0 : Seg), 62, 63], (coldClearing g).pc.supply = .coldInit ∧ (coldClearing g).js.clearing = some g ∧
      (coldClearing g).js.used = 0 ∧ (coldClearing g).js.mark ≠ 1) ∧
    (let a := got .clearingEnd (coldClearing 63);
      a.js.copyWrite.map CopyWrite.target = some .a ∧ a.js.filling = 0 ∧ a.pc.supply = .coldInit ∧
        (got .controlBlockWriteEnd a).js.copyWrite.map CopyWrite.target = some .b) ∧
    ({ coldClearing 63 with js := { (coldClearing 63).js with
        index := (coldClearing 63).js.index.set 1 (IndexEntry.empty .prepared) } }).js.index[(1 : Seg)].state = .prepared := by
  decide +kernel

/-- No row of the table carries bits: no word spells a command. -/
theorem test_no_word_spells_a_command : decodeTableWord 8 0x11 = none := by decide

end Sys2Proof.Tests
end

section
/-! SUPPORT. The shared operations of the Journal Store, said once: what preparation does in each state of the next segment,
what a control block write request and a reclamation leave, and when the journal holds no record. -/

namespace Sys2Proof.Machine

section

variable (s : State)

/-! ## Preparation and the hold floor (R26, R29, R30) -/

theorem prepare_of_free (h : (s.js.index[s.js.next]).state = .free) :
    prepare s = setBlocked .clear (startClearing s.js.next s) := by
  unfold prepare; rw [h]

theorem prepare_of_clearing_or_prepared
    (h : (s.js.index[s.js.next]).state = .clearing ∨ (s.js.index[s.js.next]).state = .prepared) :
    prepare s = setBlocked .clear s := by
  unfold prepare
  obtain h | h := h <;> rw [h]

theorem prepare_of_sealed_stop (h : (s.js.index[s.js.next]).state = .sealed) (hp : s.js.policy = .stop) :
    prepare s = setBlocked .full s := by
  unfold prepare; rw [h, hp]

theorem prepare_of_sealed_held (h : (s.js.index[s.js.next]).state = .sealed) (hp : s.js.policy = .wrap)
    (hh : nextHeld s = true) : prepare s = setBlocked .held s := by
  unfold prepare; rw [h, hp]; exact if_pos hh

theorem prepare_of_sealed_unheld (h : (s.js.index[s.js.next]).state = .sealed) (hp : s.js.policy = .wrap)
    (hh : nextHeld s = false) : prepare s = setBlocked .clear (reclaim s) := by
  unfold prepare; rw [h, hp]; simp only [hh, Bool.false_eq_true, if_false]

theorem exec_holdFloorReport_of_cons {f : Option Nat} {rest : List (Option Nat)} (h : s.js.floorReports = f :: rest) :
    exec .holdFloorReport s = .next (takeFloor f (s.onJs (fun j => { j with floorReports := rest }))) := by
  change execHoldFloorReport s = _
  unfold execHoldFloorReport; rw [h]

/-! ## Control block write requests (R37) -/

theorem requestCopy_of_writing (h : s.js.copyWrite.isSome = true) :
    requestCopy s = s.onJs (fun j => { j with copyPending := true }) := if_pos h

theorem requestCopy_of_idle (h : s.js.copyWrite = none) : requestCopy s = startCopy s :=
  if_neg (by simp [h])

/-- A request changes nothing of the JS but the write in progress and the pending flag. -/
theorem requestCopy_js : (requestCopy s).js =
    { s.js with copyWrite := (requestCopy s).js.copyWrite, copyPending := (requestCopy s).js.copyPending } := by
  unfold requestCopy; split <;> rfl

/-! ## Reclamation (R28) -/

/-- The JS after a reclamation: the request made on the way moves the write in progress and the pending flag alone. -/
theorem reclaim_js : (reclaim s).js =
    { s.js with
      head := s.js.head + 1
      used := s.js.used - 1
      reclaimed := min (s.js.reclaimed + (s.js.index[s.js.head]).count) 4294967295
      index := s.js.index.set s.js.head (IndexEntry.empty .clearing)
      clearing := some s.js.head
      copyWrite := (requestCopy (beforeCopy s)).js.copyWrite
      copyPending := (requestCopy (beforeCopy s)).js.copyPending } := by
  rw [reclaim_eq, startClearing, State.onJs_js, requestCopy_js]
  rfl

theorem reclaim_cu : (reclaim s).cu = (beforeCopy s).cu := by
  simp [reclaim_eq]

theorem reclaim_copy_of_writing (h : s.js.copyWrite.isSome = true) :
    (reclaim s).js.copyPending = true ∧ (reclaim s).js.copyWrite = s.js.copyWrite := by
  rw [reclaim_js, requestCopy_of_writing (beforeCopy s) h]
  exact ⟨rfl, rfl⟩

theorem reclaim_copy_of_idle (h : s.js.copyWrite = none) :
    (reclaim s).js.copyWrite.isSome = true ∧ (reclaim s).js.copyPending = s.js.copyPending := by
  rw [reclaim_js, requestCopy_of_idle (beforeCopy s) h]
  exact ⟨rfl, rfl⟩

/-! ## The used segments and the head sequence (R15, R20) -/

/-- The used segments are the first `used` ones counted from the head, and at most all 64. -/
theorem Js.mem_usedSegs {j : Js} {g : Seg} :
    g ∈ j.usedSegs ↔ ∃ k, k < j.used ∧ k < 64 ∧ g = j.head + Fin.ofNat 64 k := by
  unfold Js.usedSegs fins
  rw [List.mem_take_iff_getElem]
  simp only [List.getElem_map, List.getElem_finRange, List.length_map, List.length_finRange, lt_min_iff]
  constructor
  · rintro ⟨k, ⟨hu, hk⟩, rfl⟩
    exact ⟨k, hu, hk, by congr 1; ext; simp [Nat.mod_eq_of_lt hk]⟩
  · rintro ⟨k, hu, hk, rfl⟩
    exact ⟨k, ⟨hu, hk⟩, by congr 1; ext; simp [Nat.mod_eq_of_lt hk]⟩

theorem journalEmpty_iff : journalEmpty s = true ↔
    ∀ k, k < s.js.used → k < 64 → placeState s.mem (s.js.head + Fin.ofNat 64 k) 1 = .free := by
  unfold journalEmpty segmentHolds
  simp only [List.all_eq_true, Js.mem_usedSegs, Bool.not_eq_true', bne_eq_false_iff_eq]
  constructor
  · exact fun h k hu hk => h _ ⟨k, hu, hk, rfl⟩
  · rintro h _ ⟨k, hu, hk, rfl⟩
    exact h k hu hk

theorem headSeq_of_empty (h : journalEmpty s = true) : headSeq s = tailSeq s := if_pos h

theorem headSeq_of_nonempty (h : journalEmpty s ≠ true) : headSeq s = headerFirst s.mem s.js.head := if_neg h

end

/-! ## The statement -/

/-- Settles O17: preparation branch by branch, a reclamation field by field, and the head sequence by whether some used
segment holds a record. -/
theorem preparationAndReclamation : Obligations.PreparationAndReclamation := by
  unfold Obligations.PreparationAndReclamation
  refine ⟨fun s => ⟨prepare_of_free s, prepare_of_clearing_or_prepared s, prepare_of_sealed_stop s,
      prepare_of_sealed_held s, prepare_of_sealed_unheld s, fun f rest h => exec_holdFloorReport_of_cons s h⟩,
    fun s => ?_, fun s => ⟨fun k hu hk hholds => ?_, fun hnone => ?_⟩⟩
  · refine ⟨?_, ?_, ?_, ?_, ?_, reclaim_cu s, reclaim_copy_of_writing s, reclaim_copy_of_idle s, ?_⟩
    all_goals simp [reclaim_js]
  · exact headSeq_of_nonempty s (fun he => hholds ((journalEmpty_iff s).1 he k hu hk))
  · exact headSeq_of_empty s ((journalEmpty_iff s).2 fun k hu hk => not_not.1 (hnone k hu hk))

end Sys2Proof.Machine
end

section
/-! SUPPORT. How an append ends when no stop of the AU has been asked for (R58 to R64). -/

namespace Sys2Proof.Machine

section

variable (s : State)

/-- The origins whose append's end starts nothing of its own: no entry into RUN, no end of FORMAT, no end of hold-up. -/
def Origin.endsPlainly : Origin → Prop
  | .system .timeSet | .system .silent | .host _ | .capture _ _ => True
  | .system .coldStart | .system .recovered | .system .powerDown | .system .formatted => False

theorem Origin.endsPlainly_of_timeSet_or_silent {o : Origin} (h : o = .system .timeSet ∨ o = .system .silent) :
    o.endsPlainly := by
  obtain rfl | rfl := h <;> trivial

theorem afterAppend_of_endsPlainly {o : Origin} (ho : o.endsPlainly) : afterAppend o s = s := by
  match o, ho with
  | .system .timeSet, _ | .system .silent, _ | .host _, _ | .capture _ _, _ => rfl

theorem stopsAfterAppend_of_idle (hh : s.au.holdup = .idle) (hf : s.au.formatAsked = false) : stopsAfterAppend s = s := by
  simp [stopsAfterAppend, hh, hf]

/-- With no stop asked for, such an append ends by leaving the AU without a record in progress. -/
theorem endAppend_of_endsPlainly {o : Origin} (ho : o.endsPlainly) (hh : s.au.holdup = .idle)
    (hf : s.au.formatAsked = false) : endAppend o s = setRecord none s := by
  have hne : o ≠ .system .powerDown := by rintro rfl; exact ho
  unfold endAppend
  rw [if_neg hne, afterAppend_of_endsPlainly _ ho]
  exact stopsAfterAppend_of_idle _ hh hf

end

end Sys2Proof.Machine
end

section
/-! SUPPORT. The end of the write step: what a commit writes, announces and answers. -/

namespace Sys2Proof.Machine

/-! ## What a commit writes (R4) -/

/-- What writes leave at an address depends on the memory before them at that address alone. -/
theorem Memory.read_writeCells_congr {m m' : Memory} (h : m.wf = true) (h' : m'.wf = true) {y : Nat}
    (hy : m.read y = m'.read y) (l : List Host.Cell) : (m.writeCells l).read y = (m'.writeCells l).read y := by
  unfold Memory.writeCells
  induction l generalizing m m' with
  | nil => exact hy
  | cons c l ih =>
    refine ih (Memory.wf_write c.1 c.2 h) (Memory.wf_write c.1 c.2 h') ?_
    by_cases hc : c.1 < memorySize
    · rw [Memory.read_write h _ _ _ hc, Memory.read_write h' _ _ _ hc, hy]
    · simp only [Memory.write, if_neg hc, hy]

/-- The byte of a first write stays when no later one goes to its address. -/
theorem Memory.read_writeCells_cons {m : Memory} (h : m.wf = true) {x : Nat} (v : Byte) {l : List Host.Cell}
    (hx : x < memorySize) (hne : ∀ c ∈ l, c.1 ≠ x) (y : Nat) :
    (m.writeCells ((x, v) :: l)).read y = if y = x then v else (m.writeCells l).read y := by
  have hw : (m.write x v).wf = true := Memory.wf_write x v h
  change ((m.write x v).writeCells l).read y = _
  split
  case isTrue heq =>
    subst heq
    rw [Memory.read_writeCells_other hw l hne, Memory.read_write h _ _ _ hx, if_pos rfl]
  case isFalse hyx => exact Memory.read_writeCells_congr hw h (Memory.read_write_other h v (Ne.symm hyx)) l

theorem commitCells_eq (x : Nat) (r : Record) (seq : Nat) : commitCells x r seq =
    [(x, 0xC3), (x + 6, byte (r.payloadCheck / 256)), (x + 7, byte r.payloadCheck),
      (x + 20, byte (r.headerCheck seq / 256)), (x + 21, byte (r.headerCheck seq))] := rfl

/-- The commit of the record at `x` writes its state byte and its two checks, and no other byte. -/
theorem read_commitCells {m : Memory} (h : m.wf = true) {x : Nat} (hx : x + 21 < memorySize) (r : Record) (seq a : Nat) :
    (m.writeCells (commitCells x r seq)).read a =
      if a = x then 0xC3 else if a = x + 6 then byte (r.payloadCheck / 256) else if a = x + 7 then byte r.payloadCheck
      else if a = x + 20 then byte (r.headerCheck seq / 256) else if a = x + 21 then byte (r.headerCheck seq)
      else m.read a := by
  rw [commitCells_eq, Memory.read_writeCells_cons h _ (by omega) (by simp),
    Memory.read_writeCells_cons h _ (by omega) (by simp), Memory.read_writeCells_cons h _ (by omega) (by simp),
    Memory.read_writeCells_cons h _ (by omega) (by simp), Memory.read_writeCells_cons h _ (by omega) (by simp)]
  rfl

/-- A record that begins at unit 253 or below has its whole header inside the record memory (R18). -/
theorem header_inside (g : Seg) {u : Nat} (hu : u ≤ 253) : unitAddr g u + 21 < memorySize := by
  have hg := g.isLt
  unfold unitAddr memorySize
  omega

section

variable (s : State)

/-! ## The commit (R4, R33, R58, R59) -/

/-- What every commit does whoever appended the record: the checks and the state are written, the index entry is updated,
the CU and the WU get the notice. -/
def commitAndTell (r : InProgress) (s : State) : State :=
  { s with
    mem := s.mem.writeCells (commitCells (unitAddr r.seg r.unit) r.data r.seq)
    js := s.js.onEntry r.seg (fun e =>
      e.add r.seq r.data.stamp r.data.cls r.data.source.code r.data.node r.data.unset)
    cu := { s.cu with notices := s.cu.notices ++ [noticeOf r] }
    wu := { s.wu with notices := s.wu.notices ++ [noticeOf r] } }

theorem commit_of_host {r : InProgress} {tag : Byte} (ho : r.origin = .host tag) : commit r s =
    freePlace (post (Response.plain tag .committed (be32 r.seq ++ r.data.stamp.bytes)) (commitAndTell r s)) := by
  unfold commit; rw [ho]; rfl

theorem commit_of_capture {r : InProgress} {i : Fin 2} {k : Nat} (ho : r.origin = .capture i k) : commit r s =
    (commitAndTell r s).onCp (fun p =>
      { p with notices := p.notices ++ [{ notice := noticeOf r, slot := i, place := k, oldJournal := false }] }) := by
  unfold commit; rw [ho]; rfl

theorem commit_of_system {r : InProgress} {kind : SysKind} (ho : r.origin = .system kind) :
    commit r s = commitAndTell r s := by
  unfold commit; rw [ho]; rfl

theorem exec_writeStepEnd_of_writing {r : InProgress} (hr : s.au.record = some r) (hp : r.phase = .writing) :
    exec .writeStepEnd s = .next (endAppend r.origin (commit r s)) := by
  change execWriteStepEnd s = _
  simp [execWriteStepEnd, hr, hp]

/-- A commit asks for no stop of the AU. -/
theorem commit_stops (r : InProgress) :
    (commit r s).au.holdup = s.au.holdup ∧ (commit r s).au.formatAsked = s.au.formatAsked := by
  unfold commit
  cases r.origin <;> exact ⟨rfl, rfl⟩

/-- With no stop asked for, the write step of a record that ends plainly ends with its commit and no record in progress. -/
theorem exec_writeStepEnd_of_endsPlainly {r : InProgress} (hr : s.au.record = some r) (hp : r.phase = .writing)
    (ho : r.origin.endsPlainly) (hh : s.au.holdup = .idle) (hf : s.au.formatAsked = false) :
    exec .writeStepEnd s = .next (setRecord none (commit r s)) := by
  obtain ⟨hh', hf'⟩ := commit_stops s r
  rw [exec_writeStepEnd_of_writing s hr hp,
    endAppend_of_endsPlainly _ ho (hh'.trans hh) (hf'.trans hf)]

end

/-! ## The statement -/

/-- Settles O28: the end of the write step is the commit with no record left in progress; the three origins differ in who
is told. -/
theorem commitEndsAppend : Obligations.CommitEndsAppend := by
  unfold Obligations.CommitEndsAppend
  intro s r hwf hr hphase hunit hidle hask
  have hwritten := read_commitCells hwf (header_inside r.seg hunit) r.data r.seq
  refine ⟨fun tag ho => ⟨_, hwritten, ?_⟩, fun i k ho => ⟨_, hwritten, ?_⟩, fun ho => ⟨_, hwritten, ?_⟩⟩
  · rw [exec_writeStepEnd_of_endsPlainly s hr hphase (by rw [ho]; trivial) hidle hask, commit_of_host s ho]
    rfl
  · rw [exec_writeStepEnd_of_endsPlainly s hr hphase (by rw [ho]; trivial) hidle hask, commit_of_capture s ho]
    rfl
  · rw [exec_writeStepEnd_of_endsPlainly s hr hphase (Origin.endsPlainly_of_timeSet_or_silent ho) hidle hask]
    obtain ho | ho := ho <;> rw [commit_of_system s ho] <;> rfl

end Sys2Proof.Machine
end

section
/-! SUPPORT. Refused records: the end of a refusal, and the ways to it from the checks, from the request for the next
segment and from a full system lane. -/

namespace Sys2Proof.Machine

section

variable (s : State)

/-! ## Refusals (R60 to R62) -/

/-- A host record that is refused is answered with the code, and its place is free. -/
theorem refuse_of_host {r : InProgress} {tag : Byte} (code : Result) (ho : r.origin = .host tag)
    (hh : s.au.holdup = .idle) (hf : s.au.formatAsked = false) :
    refuse code r s = setRecord none (freePlace (post (Response.plain tag code []) s)) := by
  unfold refuse; rw [ho]
  exact endAppend_of_endsPlainly _ trivial hh hf

/-- A TIME_SET or SILENT record that is refused is dropped and counted lost. -/
theorem refuse_of_timeSet_or_silent {r : InProgress} (code : Result)
    (ho : r.origin = .system .timeSet ∨ r.origin = .system .silent) (hh : s.au.holdup = .idle)
    (hf : s.au.formatAsked = false) : refuse code r s = setRecord none (loseSystem s) := by
  have hend := endAppend_of_endsPlainly (loseSystem s) (Origin.endsPlainly_of_timeSet_or_silent ho) hh hf
  unfold refuse
  obtain ho | ho := ho <;> rw [ho] at hend ⊢ <;> exact hend

/-- A capture record that is refused stays in the AU, refused, until the CP has taken the notice. -/
theorem refuse_of_capture {r : InProgress} {i : Fin 2} {k : Nat} (code : Result) (ho : r.origin = .capture i k) :
    refuse code r s = (setRecord (some { r with phase := .refused code }) s).onCp
      (fun p => { p with refusal := some { slot := i, place := k, code := code } }) := by
  unfold refuse; rw [ho]

/-- A record as exhausted numbering refuses it at its checks. -/
def InProgress.exhausted (data : Record) (origin : Origin) : InProgress :=
  { InProgress.take data origin with phase := .refused .seqExhausted }

/-- Exhausted numbering refuses whatever record is taken (R14, R53). -/
theorem beginAppend_of_exhausted (data : Record) (origin : Origin) (hx : s.au.nextSeq = .exhausted) :
    beginAppend data origin s = refuse .seqExhausted (InProgress.exhausted data origin)
      (setRecord (some (InProgress.exhausted data origin)) s) := by
  have hchecks : appendChecks (InProgress.take data origin) s = setRecord (some (InProgress.exhausted data origin)) s := by
    unfold appendChecks; rw [hx]; rfl
  unfold beginAppend; rw [hchecks]; rfl

/-! ## The arbiter's choice (R50) -/

theorem exec_arbiterChoice : exec .arbiterChoice s = .next (arbiterChoice s) := rfl

theorem arbiterChoice_of_system {q : SysRequest} {qs : List SysRequest} (hp : s.au.paused = false)
    (hr : s.au.record = none) (hq : s.au.systemLane = q :: qs) : arbiterChoice s = takeSystem q s := by
  simp [arbiterChoice, hp, hr, hq]

theorem arbiterChoice_of_host (hp : s.au.paused = false) (hr : s.au.record = none) (hq : s.au.systemLane = [])
    (hw : hostWaits s.au = true) (ht : captureOffer s.cp = none ∨ s.au.lastServed = .capture) :
    arbiterChoice s = takeHost s := by
  cases ho : captureOffer s.cp with
  | none => simp [arbiterChoice, hp, hr, hq, ho, hw]
  | some offer =>
    have hl : s.au.lastServed = .capture := ht.resolve_left (by simp [ho])
    simp [arbiterChoice, hp, hr, hq, ho, hw, hl]

theorem arbiterChoice_of_capture {i : Fin 2} {k : Nat} (hp : s.au.paused = false) (hr : s.au.record = none)
    (hq : s.au.systemLane = []) (hw : hostWaits s.au = false) (ho : captureOffer s.cp = some (i, k)) :
    arbiterChoice s = takeCapture i k s := by
  simp [arbiterChoice, hp, hr, hq, ho, hw]

/-- The front of the host lane is taken when it waits. -/
theorem takeHost_of_front {e : Entry} {rest : List HostPlace}
    (hl : s.au.hostLane = { entry := e, state := .waiting } :: rest) :
    takeHost s = beginAppend (Record.plain .host (e.param 0) e.payload) (.host e.tag)
      (s.onAu (fun a => { a with hostLane := { entry := e, state := .inProgress } :: rest, lastServed := .host })) := by
  simp [takeHost, State.onAu, hl, takeFirstWaiting]

theorem takeCapture_of_slot {i : Fin 2} {k : Nat} {b : Burst} (hb : s.cp.slots[i] = some b) :
    takeCapture i k s = beginAppend (captureRecord b (b.records.getD k default)) (.capture i k)
      ((s.onCp (Cp.onSlot i (Burst.resolve k .inAppend))).onAu (fun a => { a with lastServed := .capture })) := by
  unfold takeCapture; rw [hb]

/-! ## The request for the next segment (R54) -/

theorem exec_nextSegmentRequest_of_requesting {r : InProgress} (hr : s.au.record = some r) (hp : r.phase = .requesting) :
    exec .nextSegmentRequest s = .next (nextSegmentRequest r s) := by
  change execNextSegmentRequest s = _
  simp [execNextSegmentRequest, hr, hp]

/-- Why the JS refuses a SEALED next segment (R29, R54): the policy STOP, or a hold under WRAP. -/
def sealedRefusal (s : State) (code : Result) : Prop :=
  (s.js.policy = .stop ∧ code = .journalFull) ∨ (s.js.policy = .wrap ∧ nextHeld s = true ∧ code = .held)

theorem nextSegmentRequest_of_sealed (r : InProgress) {code : Result}
    (hst : (s.js.index[s.js.next]).state = .sealed) (hc : sealedRefusal s code) :
    nextSegmentRequest r s = refuse code r s := by
  unfold nextSegmentRequest
  obtain ⟨hp, rfl⟩ | ⟨hp, hh, rfl⟩ := hc
  · simp only [hst, hp]
  · simp only [hst, hp, hh, if_true]

end

/-! ## System record requests (R46, R62, R64) -/

theorem requestSystem_of_room (q : SysRequest) (s : State) (hh : s.au.holdup = .idle)
    (hl : s.au.systemLane.length < 4) :
    requestSystem q s = s.onAu (fun a => { a with systemLane := a.systemLane ++ [q] }) := by
  simp [requestSystem, hh, hl]

theorem requestSystem_of_full (q : SysRequest) (s : State) (hh : s.au.holdup = .idle)
    (hl : 4 ≤ s.au.systemLane.length) : requestSystem q s = loseSystem s := by
  simp [requestSystem, hh, Nat.not_lt.2 hl]

theorem requestSystem_of_holdup (q : SysRequest) (s : State) (hh : s.au.holdup ≠ .idle) : requestSystem q s = s :=
  if_pos hh

theorem NextSeq.after_eq_exhausted_iff (n : Nat) : NextSeq.after n = .exhausted ↔ n = 4294967295 := by
  unfold NextSeq.after
  split
  case isTrue h => exact iff_of_true rfl h
  case isFalse h => exact iff_of_false NextSeq.noConfusion h

/-! ## Refusals at the checks, with numbering exhausted (R14, R53, R60) -/

theorem setRecord_none_of_none (s : State) (hr : s.au.record = none) : setRecord none s = s := by
  unfold setRecord State.onAu
  rw [← hr]

/-- A place taken from the front of the lane is free again at the end of its append; the places that wait stay. -/
theorem freePlace_of_front (s : State) {e : Entry} {rest : List HostPlace}
    (hl : s.au.hostLane = { entry := e, state := .inProgress } :: rest) (hw : ∀ p ∈ rest, p.state = .waiting) :
    freePlace s = s.onAu (fun a => { a with hostLane := rest }) := by
  have hrest : rest.filter (fun p => p.state != .inProgress) = rest :=
    List.filter_eq_self.2 fun p hp => by rw [hw p hp]; rfl
  simp [freePlace, State.onAu, hl, hrest]

theorem Cp.onSlot_of_some (p : Cp) {i : Fin 2} {b : Burst} (f : Burst → Burst) (hb : p.slots[i] = some b) :
    p.onSlot i f = { p with slots := p.slots.set i (some (f b)) } := by
  unfold Cp.onSlot vmod
  rw [hb]; rfl

section

variable (s : State) (hp : s.au.paused = false) (hr : s.au.record = none) (hx : s.au.nextSeq = .exhausted)

include hp hr hx

/-- A system record is dropped whole and counted lost. -/
theorem arbiterChoice_exhausted_system {q : SysRequest} {qs : List SysRequest} (hh : s.au.holdup = .idle)
    (hf : s.au.formatAsked = false) (hq : s.au.systemLane = q :: qs) (hk : q.kind = .timeSet ∨ q.kind = .silent) :
    arbiterChoice s = loseSystem (s.onAu (fun a => { a with systemLane := qs })) := by
  have ho : Origin.system q.kind = .system .timeSet ∨ Origin.system q.kind = .system .silent := by
    obtain hk | hk := hk <;> simp [hk]
  have htaken : s.onAu (fun a => { a with systemLane := a.systemLane.drop 1 }) =
      s.onAu (fun a => { a with systemLane := qs }) := by simp [State.onAu, hq]
  rw [arbiterChoice_of_system s hp hr hq, takeSystem, htaken, beginAppend_of_exhausted _ _ _ (by exact hx),
    refuse_of_timeSet_or_silent _ _ ho (by exact hh) (by exact hf)]
  exact setRecord_none_of_none (loseSystem (s.onAu _)) hr

/-- A host record is answered, and its place is free. -/
theorem arbiterChoice_exhausted_host {e : Entry} {rest : List HostPlace} (hh : s.au.holdup = .idle)
    (hf : s.au.formatAsked = false) (hq : s.au.systemLane = [])
    (hl : s.au.hostLane = { entry := e, state := .waiting } :: rest) (hw : ∀ p ∈ rest, p.state = .waiting)
    (ht : captureOffer s.cp = none ∨ s.au.lastServed = .capture) :
    arbiterChoice s = post (Response.plain e.tag .seqExhausted [])
      (s.onAu (fun a => { a with hostLane := rest, lastServed := .host })) := by
  rw [arbiterChoice_of_host s hp hr hq (by simp [hostWaits, hl]) ht, takeHost_of_front s hl,
    beginAppend_of_exhausted _ _ _ (by exact hx), refuse_of_host _ _ rfl (by exact hh) (by exact hf),
    freePlace_of_front _ rfl hw]
  exact setRecord_none_of_none
    (post (Response.plain e.tag .seqExhausted []) (s.onAu (fun a => { a with hostLane := rest, lastServed := .host }))) hr

/-- A capture record stays in the AU, refused, and the CP has the notice. -/
theorem arbiterChoice_exhausted_capture {i : Fin 2} {k : Nat} {b : Burst} (hq : s.au.systemLane = [])
    (hl : s.au.hostLane = []) (ho : captureOffer s.cp = some (i, k)) (hb : s.cp.slots[i] = some b) :
    arbiterChoice s = (setRecord
        (some (InProgress.exhausted (captureRecord b (b.records.getD k default)) (.capture i k)))
        (s.onAu (fun a => { a with lastServed := .capture }))).onCp
      (fun p => { p with
        refusal := some { slot := i, place := k, code := .seqExhausted }
        slots := p.slots.set i (some (b.resolve k .inAppend)) }) := by
  rw [arbiterChoice_of_capture s hp hr hq (by simp [hostWaits, hl]) ho, takeCapture_of_slot s hb,
    beginAppend_of_exhausted _ _ _ (by exact hx), refuse_of_capture _ _ rfl]
  simp only [State.onCp, Cp.onSlot_of_some s.cp _ hb]
  rfl

end

/-! ## The statement on refusals -/

/-- Settles O30: the refusal of each lane's record at the checks, then at a SEALED next segment, then at a full system
lane. -/
theorem refusedRecordsAreAccounted : Obligations.RefusedRecordsAreAccounted := by
  unfold Obligations.RefusedRecordsAreAccounted
  refine ⟨fun s hp hr hx hh hf => ⟨fun q qs hq hk => ?_, fun e rest hq hl hw ht => ?_, fun i k b hq hl ho hb => ?_⟩,
    fun s r code hr hphase hh hf hst hcode => ⟨fun ho => ?_, fun i k ho => ?_⟩,
    fun s q => ⟨requestSystem_of_room q s, requestSystem_of_full q s, requestSystem_of_holdup q s⟩,
    NextSeq.after_eq_exhausted_iff⟩
  · rw [exec_arbiterChoice, arbiterChoice_exhausted_system s hp hr hx hh hf hq hk]; rfl
  · rw [exec_arbiterChoice, arbiterChoice_exhausted_host s hp hr hx hh hf hq hl hw ht]; rfl
  · refine ⟨InProgress.exhausted (captureRecord b (b.records.getD k default)) (.capture i k), rfl, rfl, ?_⟩
    rw [exec_arbiterChoice, arbiterChoice_exhausted_capture s hp hr hx hq hl ho hb]; rfl
  · rw [exec_nextSegmentRequest_of_requesting s hr hphase, nextSegmentRequest_of_sealed s r hst hcode,
      refuse_of_timeSet_or_silent s code ho hh hf]
    rfl
  · rw [exec_nextSegmentRequest_of_requesting s hr hphase, nextSegmentRequest_of_sealed s r hst hcode,
      refuse_of_capture s code ho]
    rfl

end Sys2Proof.Machine
end

section
/-! SUPPORT. The canonical form of the record memory (R18): which commands write the memory at all, and that each operation
that does keeps the form. -/

namespace Sys2Proof.Machine

/-! ## The commands that write no byte of the record memory -/

/-- The commands that can write the record memory: those with which an append goes on or ends, a clearing or recovery ends,
a stop cuts the writes in flight or the battery domain is lost. -/
def writesMemory : Instr → Bool
  | .arbiterChoice | .nextSegmentRequest | .writeStepEnd | .refusalNotice | .clearingEnd | .auStopped _ | .holdup _
  | .auEnded _ | .controlBlockWriteEnd | .recoveryScanEnd | .resetAssert _ | .vmainLost _ | .vbatFall => true
  | _ => false

section

variable (s : State)

theorem withJs_mem (o : Nat) {f : Entry → State → State} (hf : ∀ e, (f e s).mem = s.mem) :
    (withJs o f s).mem = s.mem := by
  unfold withJs; (repeat' split) <;> simp [hf]

theorem withCu_mem (o : Nat) {f : Entry → State → State} (hf : ∀ e, (f e s).mem = s.mem) :
    (withCu o f s).mem = s.mem := by
  unfold withCu; (repeat' split) <;> simp [hf]

theorem withTb_mem (o : Nat) {f : Entry → State → State} (hf : ∀ e, (f e s).mem = s.mem) :
    (withTb o f s).mem = s.mem := by
  unfold withTb; (repeat' split) <;> simp [hf]

theorem withWu_mem (o : Nat) {f : Entry → State → State} (hf : ∀ e, (f e s).mem = s.mem) :
    (withWu o f s).mem = s.mem := by
  unfold withWu; (repeat' split) <;> simp [hf]

theorem withCp_mem (o : Nat) {f : Entry → State → State} (hf : ∀ e, (f e s).mem = s.mem) :
    (withCp o f s).mem = s.mem := by
  unfold withCp; (repeat' split) <;> simp [hf]

theorem withCursor_mem (moves : Bool) (e : Entry) {f : Fin 4 → Entry → State → State}
    (hf : ∀ c, (f c e s).mem = s.mem) : (withCursor moves f e s).mem = s.mem := by
  unfold withCursor; (repeat' split) <;> simp [hf]

theorem withScan_mem {f : Entry → Scan → State → State} (hf : ∀ e sc, (f e sc s).mem = s.mem) :
    (withScan f s).mem = s.mem := by
  unfold withScan; (repeat' split) <;> simp [hf]

theorem onBus_mem {f : State → State} (hf : (f s).mem = s.mem) : (onBus f s).mem = s.mem := by
  unfold onBus; split <;> simp [hf]

/-- A command that is none of `writesMemory` leaves the record memory as it is. -/
theorem exec_mem_of_not_writesMemory {c : Instr} (hc : writesMemory c = false) :
    ∃ t, exec c s = .next t ∧ t.mem = s.mem := by
  cases c with
  | arbiterChoice | nextSegmentRequest | writeStepEnd | refusalNotice | clearingEnd | auStopped | holdup | auEnded
  | controlBlockWriteEnd | recoveryScanEnd | resetAssert | vmainLost | vbatFall => exact Bool.noConfusion hc
  | format | setPolicy | journalStatus | segmentInfo => exact ⟨_, rfl, withJs_mem s _ fun e => by simp⟩
  | openCursor => exact ⟨_, rfl, withCu_mem s _ fun e => by simp⟩
  | seek =>
    refine ⟨_, rfl, withCu_mem s _ fun e => ?_⟩
    split
    · rfl
    · exact withCursor_mem s _ e fun c => by simp
  | seekTime =>
    refine ⟨_, rfl, withCu_mem s _ fun e => ?_⟩
    split
    · exact withCursor_mem s _ e fun c => by simp
    · rfl
  | fetch | count | cancel | close | cursorStatus =>
    exact ⟨_, rfl, withCu_mem s _ fun e => withCursor_mem s _ e fun c => by simp⟩
  | scanStep => exact ⟨_, rfl, withScan_mem s fun e sc => by split <;> simp⟩
  | tailTest => exact ⟨_, rfl, withScan_mem s fun e sc => by split <;> simp⟩
  | readTime | setTime | adjustTime => exact ⟨_, rfl, withTb_mem s _ fun e => by simp⟩
  | watchSet | watchRead | watchOff => exact ⟨_, rfl, withWu_mem s _ fun e => by simp⟩
  | captureSet | nodeSet | nodeRead => exact ⟨_, rfl, withCp_mem s _ fun e => by simp⟩
  | cmd | ack | mask | rspPop | winEnd => exact ⟨_, rfl, by simp⟩
  | statusByte => exact ⟨_, rfl, by simp [onBus_mem]⟩
  | rsp | win | sts => exact ⟨_, rfl, onBus_mem s (by simp)⟩
  | unknownPort =>
    refine ⟨_, rfl, ?_⟩
    split
    · rfl
    · exact onBus_mem s (by simp)
  | cuCommitNotice | reclaimNotice | cpCommitNotice =>
    refine ⟨_, rfl, ?_⟩
    split
    · rfl
    · dsimp only
      (repeat' split) <;> simp
  | followTimeout =>
    refine ⟨_, rfl, ?_⟩
    dsimp only
    (repeat' split) <;> simp
  | append | dispatch | secondBoundary | decisionPoint | boundaryEvent | wuCommitNotice | characterReceived | gapTimeout
  | idleTimeElapsed | acknowledgeWindowEnd | ackFrameStart | ackFrameEnd | holdFloorReport | resetRelease | vmainRise
  | vbatRise | retentionLatchExamine =>
    refine ⟨_, rfl, ?_⟩
    (repeat' split) <;> simp
end

/-! ## The operations that write the record memory keep its canonical form -/

/-- After OFF the memory is what writes leave of an empty one (log 8), whatever it held before. -/
theorem enterOff_wf (s : State) : (enterOff s).mem.wf = true := Memory.wf_writeCells _ rfl

section

variable {s : State} (h : s.mem.wf = true)

include h

theorem openStates_wf (g : Seg) (cells : List Host.Cell) : (openStates g cells s).mem.wf = true := by
  simp [openStates, Memory.wf_writeCells, h]

theorem openFor_wf (g : Seg) (first : Nat) : (openFor g first s).mem.wf = true := by
  simp [openFor, openStates_wf, h]

theorem openFirst_wf : (openFirst s).mem.wf = true := openStates_wf h _ _

theorem beginWrite_wf (opened undo : List Host.Cell) (r : InProgress) : (beginWrite opened undo r s).mem.wf = true := by
  unfold beginWrite; split <;> simp [Memory.wf_writeCells, h]

theorem appendChecks_wf (r : InProgress) : (appendChecks r s).mem.wf = true := by
  unfold appendChecks; (repeat' split) <;> simp [beginWrite_wf, h]

theorem openAndWrite_wf (r : InProgress) : (openAndWrite r s).mem.wf = true := by
  unfold openAndWrite; split <;> simp [beginWrite_wf, openFor_wf, h]

theorem closeAu_wf : (closeAu s).mem.wf = true := by
  unfold closeAu; dsimp only; (repeat' split) <;> simp [appendChecks_wf, h]

theorem enterHoldup_wf : (enterHoldup s).mem.wf = true := by
  unfold enterHoldup; dsimp only; split <;> simp [closeAu_wf, h]

theorem enterRun_wf : (enterRun s).mem.wf = true := by
  unfold enterRun; dsimp only; (repeat' split) <;> simp [enterHoldup_wf, h]

theorem afterAppend_wf (o : Origin) : (afterAppend o s).mem.wf = true := by
  unfold afterAppend; (repeat' split) <;> simp [enterRun_wf, h]

theorem stopsAfterAppend_wf : (stopsAfterAppend s).mem.wf = true := by
  unfold stopsAfterAppend; (repeat' split) <;> simp [closeAu_wf, h]

theorem endAppend_wf (o : Origin) : (endAppend o s).mem.wf = true := by
  unfold endAppend; split <;> simp [stopsAfterAppend_wf, afterAppend_wf, h]

theorem refuse_wf (code : Result) (r : InProgress) : (refuse code r s).mem.wf = true := by
  unfold refuse; split <;> simp [endAppend_wf, h]

theorem settleRefusal_wf : (settleRefusal s).mem.wf = true := by
  unfold settleRefusal; (repeat' split) <;> simp [refuse_wf, h]

theorem commit_wf (r : InProgress) : (commit r s).mem.wf = true := by
  unfold commit; dsimp only; split <;> simp [Memory.wf_writeCells, h]

theorem beginAppend_wf (data : Record) (origin : Origin) : (beginAppend data origin s).mem.wf = true := by
  simp [beginAppend, settleRefusal_wf, appendChecks_wf, h]

theorem arbiterChoice_wf : (arbiterChoice s).mem.wf = true := by
  unfold arbiterChoice takeSystem takeHost takeCapture; (repeat' split) <;> simp [beginAppend_wf, h]

theorem nextSegmentRequest_wf (r : InProgress) : (nextSegmentRequest r s).mem.wf = true := by
  unfold nextSegmentRequest; dsimp only; (repeat' split) <;> simp [openAndWrite_wf, refuse_wf, h]

theorem endRefused_wf : (endRefused s).mem.wf = true := by
  unfold endRefused; (repeat' split) <;> simp [endAppend_wf, h]

theorem abandonClearing_wf (zeroed : Nat) : (abandonClearing zeroed s).mem.wf = true := by
  unfold abandonClearing; split <;> simp [Memory.wf_cleared, h]

theorem prepared_wf (g : Seg) : (prepared g s).mem.wf = true := by
  simp [prepared, Memory.wf_cleared, h]

theorem foldl_wf {l : List (State → State)} (hl : ∀ f ∈ l, ∀ s : State, s.mem.wf = true → (f s).mem.wf = true) :
    (l.foldl (fun s f => f s) s).mem.wf = true := by
  induction l generalizing s with
  | nil => exact h
  | cons f l ih =>
    exact ih (hl f List.mem_cons_self s h) fun g hg => hl g (List.mem_cons_of_mem f hg)

theorem thirdPhase_wf (e : Entry) (n : Nat) : (thirdPhase e n s).mem.wf = true := by
  refine foldl_wf h fun f hf s hs => ?_
  have hsteps : f ∈ thirdPhaseSteps e := List.mem_of_mem_take hf
  simp only [thirdPhaseSteps, List.mem_cons, List.not_mem_nil, or_false] at hsteps
  obtain rfl | rfl | rfl | rfl | rfl | rfl := hsteps
  · simp [openFirst_wf hs]
  all_goals simpa using hs

theorem formatThirdPhase_wf (e : Entry) (n : Nat) : (formatThirdPhase e n s).mem.wf = true := by
  simp [formatThirdPhase, thirdPhase_wf, h]

theorem formatCleared_wf (g : Seg) : (formatCleared g s).mem.wf = true := by
  unfold formatCleared; (repeat' split) <;> simp [formatThirdPhase_wf, h]

theorem coldCleared_wf (g : Seg) : (coldCleared g s).mem.wf = true := by
  unfold coldCleared; split <;> simp [openFirst_wf, h]

theorem preparationCleared_wf : (preparationCleared s).mem.wf = true := by
  unfold preparationCleared; (repeat' split) <;> simp [openAndWrite_wf, h]

theorem formatReached_wf (made : Nat) : (formatReached made s).mem.wf = true := by
  unfold formatReached; (repeat' split) <;> simp [thirdPhase_wf, prepared_wf, h]

theorem pfiFalls_wf (made : Nat) : (pfiFalls made s).mem.wf = true := by
  unfold pfiFalls; split
  · exact enterHoldup_wf (formatReached_wf (by exact h) made)
  · exact h

theorem recover_wf : (recover s).mem.wf = true := by
  unfold recover; dsimp only; split <;> simp [Memory.wf_writeCells, h]

theorem tearRecord_wf (n : Nat) : (tearRecord n s).mem.wf = true := by
  unfold tearRecord; (repeat' split) <;> simp [Memory.wf_writeCells, h]

theorem tearClearing_wf (cut : Cut) : (tearClearing cut s).mem.wf = true := by
  unfold tearClearing; dsimp only; split <;> simp [Memory.wf_writeCells, abandonClearing_wf, h]

theorem tearRepairs_wf (n : Nat) : (tearRepairs n s).mem.wf = true := by
  unfold tearRepairs; split <;> simp [Memory.wf_writeCells, h]

theorem tear_wf (cut : Cut) : (tear cut s).mem.wf = true :=
  tearRepairs_wf (by simpa using tearClearing_wf (tearRecord_wf h _) cut) _

theorem stopMain_wf (cut : Cut) : (stopMain cut s).mem.wf = true := by
  unfold stopMain; split <;> simp [tear_wf, h]

theorem enterUnpowered_wf : (enterUnpowered s).mem.wf = true := by
  unfold enterUnpowered; split
  · exact h
  · exact enterOff_wf s

theorem holdupEnd_wf : (holdupEnd s).mem.wf = true := by
  unfold holdupEnd; split
  · simpa using h
  · exact enterUnpowered_wf (by simpa using h)

end

/-- A command of `writesMemory` keeps the canonical form. -/
theorem exec_wf_of_writesMemory {s : State} (h : s.mem.wf = true) {c : Instr} (hc : writesMemory c = true) :
    ∃ t, exec c s = .next t ∧ t.mem.wf = true := by
  cases c with
  | arbiterChoice => exact ⟨_, rfl, arbiterChoice_wf h⟩
  | nextSegmentRequest => exact ⟨_, rfl, by (repeat' split) <;> simp [nextSegmentRequest_wf, h]⟩
  | writeStepEnd => exact ⟨_, rfl, by (repeat' split) <;> simp [endAppend_wf, commit_wf, h]⟩
  | refusalNotice =>
    refine ⟨_, rfl, ?_⟩
    split
    · split
      · exact endRefused_wf (by split <;> simpa using h)
      · exact h
    · exact h
  | clearingEnd =>
    refine ⟨_, rfl, ?_⟩
    split
    · exact h
    · next g _ =>
      have hp := prepared_wf h g
      dsimp only
      (repeat' split) <;> simp [coldCleared_wf, formatCleared_wf, preparationCleared_wf, hp]
  | auStopped z =>
    refine ⟨_, rfl, ?_⟩
    split
    · simp [abandonClearing_wf, h]
    · exact h
  | holdup change =>
    refine ⟨_, rfl, ?_⟩
    cases change with
    | rises => exact h
    | falls made => exact pfiFalls_wf h made
  | auEnded z =>
    refine ⟨_, rfl, ?_⟩
    split
    · simp [abandonClearing_wf, h]
    · exact h
  | controlBlockWriteEnd =>
    refine ⟨_, rfl, ?_⟩
    split
    · exact h
    · dsimp only
      (repeat' split) <;> simp [holdupEnd_wf, h]
  | recoveryScanEnd => exact ⟨_, rfl, by split <;> simp [recover_wf, h]⟩
  | resetAssert cut => exact ⟨_, rfl, by dsimp only; split <;> simp [stopMain_wf, h]⟩
  | vmainLost cut => exact ⟨_, rfl, by split <;> simp [enterUnpowered_wf, stopMain_wf, h]⟩
  | vbatFall => exact ⟨_, rfl, by dsimp only; (repeat' split) <;> simp [enterOff_wf, h]⟩
  | _ => exact Bool.noConfusion hc

/-! ## The statement -/

/-- Settles O4: a step is an oscillator tick, a command that leaves the memory as it is, or one whose writes keep the form. -/
theorem memoryStaysCanonical : Obligations.MemoryStaysCanonical := by
  unfold Obligations.MemoryStaysCanonical
  intro s t h hstep
  unfold step at hstep
  split at hstep
  case h_1 =>
    obtain rfl := Host.Outcome.next.inj hstep
    simpa using h
  case h_2 c rest hpending =>
    obtain ⟨t', hexec, hwf⟩ : ∃ t', exec c { s with pending := rest } = .next t' ∧ t'.mem.wf = true := by
      cases hc : writesMemory c with
      | true => exact exec_wf_of_writesMemory (s := { s with pending := rest }) h hc
      | false =>
        obtain ⟨t', hexec, hmem⟩ := exec_mem_of_not_writesMemory { s with pending := rest } hc
        exact ⟨t', hexec, by rw [hmem]; exact h⟩
    obtain rfl := Host.Outcome.next.inj (hexec.symm.trans hstep)
    exact hwf

end Sys2Proof.Machine
end

section
/-! SUPPORT. The control block: which copy is the later, how a write begins, and what the end of a write answers, stores and
begins (R36 to R39). -/

namespace Sys2Proof.Machine

/-! ## The later copy (R38) -/

theorem laterCopy_eq_a_iff (a b : ControlCopy) : laterCopy a b = .a ↔
    1 ≤ (a.generation + 4294967296 - b.generation) % 4294967296 ∧
      (a.generation + 4294967296 - b.generation) % 4294967296 ≤ 2147483647 := by
  simp [laterCopy]

theorem laterCopy_eq_b_iff (a b : ControlCopy) : laterCopy a b = .b ↔
    ¬ (1 ≤ (a.generation + 4294967296 - b.generation) % 4294967296 ∧
      (a.generation + 4294967296 - b.generation) % 4294967296 ≤ 2147483647) := by
  rw [← laterCopy_eq_a_iff]
  cases laterCopy a b <;> simp

/-- Settles O19: each clause is arithmetic modulo 2^32 on the two generations. -/
theorem laterCopyByGeneration : Obligations.LaterCopyByGeneration := by
  unfold Obligations.LaterCopyByGeneration
  intro a b ha hb
  simp only [laterCopy_eq_a_iff, laterCopy_eq_b_iff]
  omega

section

variable (s : State)

/-! ## A write begins and ends (R36, R37) -/

theorem CopyId.other_eq (i : CopyId) : i.other = if i = .a then .b else .a := by cases i <;> rfl

theorem CopyId.other_ne (i : CopyId) : i.other ≠ i := by cases i <;> simp [CopyId.other]

theorem setCopy_eq (i : CopyId) (c : ControlCopy) : s.setCopy i c =
    { s with copyA := if i = .a then c else s.copyA, copyB := if i = .b then c else s.copyB } := by
  cases i <;> rfl

theorem copyWritten_eq (w : CopyWrite) : copyWritten w s =
    { s with
      copyA := if w.target = .a then w.values else s.copyA, copyB := if w.target = .b then w.values else s.copyB
      js := { s.js with copyWrite := none, lastCopy := w.target, lastGeneration := w.values.generation } } := by
  rw [copyWritten, setCopy_eq]; rfl

/-- In RUN a write that ends is stored, answers the commands that wait for it, and may be followed by the next. -/
theorem exec_controlBlockWriteEnd_of_run {w : CopyWrite} (hw : s.js.copyWrite = some w) (hrun : s.pc.supply = .run) :
    exec .controlBlockWriteEnd s = .next (nextCopy (copyCompletes (copyWritten w s))) := by
  change execControlBlockWriteEnd s = _
  simp [execControlBlockWriteEnd, hw, hrun]

theorem nextCopy_of_idle (hp : s.js.copyPending = false) : nextCopy s = s := by simp [nextCopy, hp]

/-- What waits for a write when the pending one begins waits for that one. -/
def promoteWaits (s : State) : State :=
  { s with
    js := { s.js with slot := s.js.slot.map (fun x => { x with phase := x.phase.promote }) }
    cp := { s.cp with slot := s.cp.slot.map (fun x => { x with phase := x.phase.promote }) }
    pc := { s.pc with step := s.pc.step.promote } }

theorem promoteWaits_of_none {s : State} (hjs : s.js.slot = none) (hcp : s.cp.slot = none) (hpc : s.pc.step = .idle) :
    promoteWaits s = s := by
  have ejs : s.js.slot.map (fun x => { x with phase := x.phase.promote }) = s.js.slot := by rw [hjs]; rfl
  have ecp : s.cp.slot.map (fun x => { x with phase := x.phase.promote }) = s.cp.slot := by rw [hcp]; rfl
  have epc : s.pc.step.promote = s.pc.step := by rw [hpc]; rfl
  rw [promoteWaits, ejs, ecp, epc]

theorem nextCopy_of_pending (hp : s.js.copyPending = true) :
    nextCopy s = promoteWaits (startCopy (s.onJs (fun j => { j with copyPending := false }))) := if_pos hp

/-! ## The commands that wait for the write that has ended (R39, R44, R152, R153) -/

/-- The first half of `copyCompletes`: the JS's command. -/
def jsCompletes (s : State) : State :=
  match s.js.slot with
  | some { entry := e, phase := .policyWait .thisWrite } => answerJs e .done [] s
  | some { entry := e, phase := .formatEnding a (some .thisWrite) } =>
    finishFormat (setJsSlot (some { entry := e, phase := .formatEnding a none }) s)
  | _ => s

/-- The second half of `copyCompletes`: the CP's command. -/
def cpCompletes (s : State) : State :=
  match s.cp.slot with
  | some { entry := e, phase := .writeWait .thisWrite } => answer e .done [] (s.onCp (fun p => { p with slot := none }))
  | _ => s

theorem copyCompletes_eq : copyCompletes s = cpCompletes (jsCompletes s) := rfl

variable {s} {e : Entry}

theorem jsCompletes_of_none (h : s.js.slot = none) : jsCompletes s = s := by
  unfold jsCompletes; rw [h]

/-- A command that waits for the next write goes on waiting. -/
theorem jsCompletes_of_policyWait_next (h : s.js.slot = some { entry := e, phase := .policyWait .nextWrite }) :
    jsCompletes s = s := by
  unfold jsCompletes; rw [h]

/-- A SET_POLICY, or a FORMAT whose FORMATTED is committed, has nothing left to wait for. -/
theorem jsCompletes_of_durable (h : s.js.slot = some { entry := e, phase := .policyWait .thisWrite } ∨
    s.js.slot = some { entry := e, phase := .formatEnding true (some .thisWrite) }) :
    jsCompletes s = answerJs e .done [] s := by
  unfold jsCompletes
  obtain h | h := h <;> rw [h]
  rfl

/-- A FORMAT whose FORMATTED is not yet committed waits for that alone. -/
theorem jsCompletes_of_formatEnding_false
    (h : s.js.slot = some { entry := e, phase := .formatEnding false (some .thisWrite) }) :
    jsCompletes s = setJsSlot (some { entry := e, phase := .formatEnding false none }) s := by
  unfold jsCompletes; rw [h]; rfl

theorem cpCompletes_of_none (h : s.cp.slot = none) : cpCompletes s = s := by
  unfold cpCompletes; rw [h]

theorem cpCompletes_of_writeWait (h : s.cp.slot = some { entry := e, phase := .writeWait .thisWrite }) :
    cpCompletes s = answer e .done [] (s.onCp (fun p => { p with slot := none })) := by
  unfold cpCompletes; rw [h]

theorem cpCompletes_of_writeWait_next (h : s.cp.slot = some { entry := e, phase := .writeWait .nextWrite }) :
    cpCompletes s = s := by
  unfold cpCompletes; rw [h]

/-! ## FORMATTED is committed (R44 step 11) -/

/-- The answer of a FORMAT whose FORMATTED has ended depends on whether its control block write has. -/
theorem formattedEnded_of_formatEnding {b : Bool} {w : Option CopyWait}
    (h : s.js.slot = some { entry := e, phase := .formatEnding b w }) : formattedEnded s =
      if w = none then answerJs e .done [] s
      else setJsSlot (some { entry := e, phase := .formatEnding true w }) s := by
  unfold formattedEnded
  simp only [State.onJs, h]
  cases w <;> rfl

theorem exec_writeStepEnd_of_formatted {r : InProgress} (hr : s.au.record = some r) (hp : r.phase = .writing)
    (ho : r.origin = .system .formatted) (hh : s.au.holdup = .idle) (hf : s.au.formatAsked = false) :
    exec .writeStepEnd s = .next (formattedEnded (setRecord none (commitAndTell r s))) := by
  rw [exec_writeStepEnd_of_writing s hr hp, commit_of_system s ho, ho]
  have hau : (formattedEnded (setRecord none (commitAndTell r s))).au = (setRecord none (commitAndTell r s)).au := by simp
  refine congrArg _ (stopsAfterAppend_of_idle _ ?_ ?_) <;> rw [afterAppend, hau]
  · exact hh
  · exact hf

end

/-! ## The statement -/

/-- Settles O18: the end of a write is storing, the JS's answer, the CP's answer and the next write, one after another; each
clause takes the equation of each of the four for the slots it names. -/
theorem controlBlockWritesAlternate : Obligations.ControlBlockWritesAlternate := by
  unfold Obligations.ControlBlockWritesAlternate
  refine ⟨⟨fun s => ⟨requestCopy_of_writing s, fun hidle => ?_⟩, fun s w e hw hrun hslot hcp hstep => ?_⟩,
    fun s w hw hrun hstep => ?_, fun s r e w b hr ho hp hh hf hslot => ?_⟩
  · rw [requestCopy_of_idle s hidle, startCopy, CopyId.other_eq]; rfl
  · rw [exec_controlBlockWriteEnd_of_run s hw hrun, copyWritten_eq, copyCompletes_eq,
      jsCompletes_of_durable (by exact .inl hslot), cpCompletes_of_none (by exact hcp)]
    cases hpend : s.js.copyPending with
    | false =>
      rw [nextCopy_of_idle _ (by exact hpend)]
      refine ⟨_, rfl, rfl, rfl, rfl, rfl, rfl, rfl, hpend, fun _ => rfl, nofun, ?_⟩
      rw [← hpend]; rfl
    | true =>
      rw [nextCopy_of_pending _ (by exact hpend), promoteWaits_of_none (by rfl) (by exact hcp) (by exact hstep)]
      exact ⟨_, rfl, rfl, rfl, rfl, rfl, rfl, rfl, rfl, nofun, fun _ => ⟨_, rfl, CopyId.other_ne _, rfl⟩, rfl⟩
  · have hend := exec_controlBlockWriteEnd_of_run s hw hrun
    rw [copyWritten_eq, copyCompletes_eq] at hend
    refine ⟨fun hpend => ⟨fun e hslot hcp => ?_, fun e hslot hcp => ?_, fun x hslot hcp => ?_, fun e x hslot hcp => ?_⟩,
      fun hpend e x hslot hcp => ?_⟩
    · rw [hend, jsCompletes_of_durable (by exact .inr hslot), cpCompletes_of_none (by exact hcp),
        nextCopy_of_idle _ (by exact hpend), ← hcp]
      rfl
    · rw [hend, jsCompletes_of_formatEnding_false (by exact hslot), cpCompletes_of_none (by exact hcp),
        nextCopy_of_idle _ (by exact hpend), ← hcp]
      rfl
    · rw [hend, jsCompletes_of_none (by exact hslot), cpCompletes_of_writeWait (by exact hcp),
        nextCopy_of_idle _ (by exact hpend), ← hslot]
      rfl
    · rw [hend, jsCompletes_of_durable (by exact hslot), cpCompletes_of_writeWait (by exact hcp),
        nextCopy_of_idle _ (by exact hpend)]
      rfl
    · rw [hend, jsCompletes_of_policyWait_next (by exact hslot), cpCompletes_of_writeWait_next (by exact hcp),
        nextCopy_of_pending _ (by exact hpend)]
      exact ⟨_, rfl, rfl, rfl, rfl, by simp [promoteWaits, startCopy, startCopyTo, hslot, JsPhase.promote],
        by simp [promoteWaits, hcp, CpPhase.promote]⟩
  · rw [exec_writeStepEnd_of_formatted hr hp ho hh hf, formattedEnded_of_formatEnding (by exact hslot)]
    refine ⟨_, rfl, ?_⟩
    split <;> exact ⟨rfl, rfl, rfl, rfl, rfl, rfl⟩

end Sys2Proof.Machine
end

section
/-! SUPPORT. The commands in the JS's slot: SET_POLICY, JOURNAL_STATUS, SEGMENT_INFO and FORMAT's first phase (R39 to R42). -/

namespace Sys2Proof.Machine

section

variable {s : State} {e : Entry}

/-! ## Taking a command (2.8) -/

theorem withJs_of_dispatched {o : Nat} {op : Byte} (f : Entry → State → State)
    (hslot : s.js.slot = some { entry := e, phase := .dispatched }) (hop : e.opcode = op) (ho : op.toNat = o) :
    withJs o f s = f e s := by
  subst hop
  unfold withJs; rw [hslot]; exact if_pos ho

/-! ## SET_POLICY (R39) -/

theorem setPolicy_of_bad (h : 1 < e.param 0 ∨ e.param 1 < 1 ∨ 64 < e.param 1 ∨ e.payload ≠ []) :
    setPolicy e s = answerJs e .badParam [] s := if_pos h

/-- A good SET_POLICY up to the retry of preparation: the values are taken and the control block write is requested. -/
def policyTaken (e : Entry) (s : State) : State :=
  requestCopy (setJsSlot (some { entry := e, phase := .policyWait (carrier s) })
    (s.onJs (fun j => { j with policy := if e.param 0 = 0 then .wrap else .stop, mark := e.param 1 })))

theorem policyTaken_journal : (policyTaken e s).js.journal = s.js.journal := by
  rw [policyTaken, requestCopy_js]; rfl

theorem setPolicy_of_good (h0 : e.param 0 ≤ 1) (h1 : 1 ≤ e.param 1) (h64 : e.param 1 ≤ 64) (hp : e.payload = []) :
    setPolicy e s = if s.js.journal = .ready then prepare (policyTaken e s) else policyTaken e s := by
  have hgood : ¬ (1 < e.param 0 ∨ e.param 1 < 1 ∨ 64 < e.param 1 ∨ e.payload ≠ []) := by simp [hp]; omega
  rw [← policyTaken_journal (e := e)]
  exact if_neg hgood

/-! ## SEGMENT_INFO (R41) -/

theorem Entry.segment_of_param {g : Seg} (h : e.param 0 = g.val) : e.segment = some g := by
  simp [Entry.segment, h]

theorem Entry.segment_of_high (h : 63 < e.param 0) : e.segment = none := dif_neg (by omega)

theorem segmentInfo_of_bad (h : 63 < e.param 0 ∨ 2 < e.param 1 ∨ e.payload ≠ []) :
    segmentInfo e s = answerJs e .badParam [] s := by
  unfold segmentInfo
  split
  · rfl
  · next g hg =>
    have hlow : ¬ 63 < e.param 0 := fun hh => by simp [Entry.segment_of_high hh] at hg
    exact if_pos (h.resolve_left hlow)

theorem segmentInfo_of_segment {g : Seg} (hg : e.param 0 = g.val) (h1 : e.param 1 ≤ 2) (hp : e.payload = []) :
    segmentInfo e s = answerJs e .done (segmentFields g (e.param 1) s) s := by
  have hgood : ¬ (2 < e.param 1 ∨ e.payload ≠ []) := by simp [hp]; omega
  rw [segmentInfo, Entry.segment_of_param hg]
  exact if_neg hgood

end

/-! ## The statement on the journal commands -/

/-- Settles O20: the command in the slot is taken, and each clause is the branch of its meaning that the operands choose. -/
theorem journalCommandsAnswer : Obligations.JournalCommandsAnswer := by
  unfold Obligations.JournalCommandsAnswer
  intro s e hslot
  have takes {o : Nat} {op : Byte} (f : Entry → State → State) (hop : e.opcode = op) (ho : op.toNat = o) :
      withJs o f s = f e s := withJs_of_dispatched f hslot hop ho
  refine ⟨fun hop hbad => ?_, fun hop h0 h1 h64 hp => ?_, fun hop hp => ?_, fun hop hp => ?_, fun hop hbad => ?_,
    fun g hop hg hp => ⟨fun h1 => ?_, fun h1 => ?_, fun h1 => ?_⟩⟩
  · exact congrArg _ ((takes setPolicy hop rfl).trans (setPolicy_of_bad hbad))
  · exact congrArg _ ((takes setPolicy hop rfl).trans (setPolicy_of_good h0 h1 h64 hp))
  · exact congrArg _ ((takes journalStatus hop rfl).trans (if_neg (not_not.2 hp)))
  · exact congrArg _ ((takes journalStatus hop rfl).trans (if_pos hp))
  · exact congrArg _ ((takes segmentInfo hop rfl).trans (segmentInfo_of_bad hbad))
  all_goals
    refine congrArg _ ((takes segmentInfo hop rfl).trans ?_)
    rw [segmentInfo_of_segment hg (by omega) hp, h1]
    rfl

end Sys2Proof.Machine
end

section
/-! SUPPORT. FORMAT's first two phases: the AU is asked to stop, the cursors close, and the clearing of all segments starts
(R42, R43, R63, R127). -/

namespace Sys2Proof.Machine

section

variable {s : State} {e : Entry}

/-! ## The first phase (R42, R63) -/

theorem format_of_bad (h : 1 < e.param 0 ∨ e.payload ≠ []) : format e s = answerJs e .badParam [] s := if_pos h

theorem format_of_good (h0 : e.param 0 ≤ 1) (hp : e.payload = []) :
    format e s = askAuToStop (setJsSlot (some { entry := e, phase := .formatStopping }) s) := by
  have hgood : ¬ (1 < e.param 0 ∨ e.payload ≠ []) := by simp [hp]; omega
  exact if_neg hgood

theorem askAuToStop_of_none (h : s.au.record = none) : askAuToStop s =
    (s.onAu (fun a => { a with paused := true })).onJs (fun j => { j with auStopped := true }) := by
  unfold askAuToStop; rw [h]

theorem askAuToStop_of_record (h : s.au.record ≠ none) :
    askAuToStop s = s.onAu (fun a => { a with formatAsked := true }) := by
  obtain ⟨r, hr⟩ := Option.ne_none_iff_exists'.1 h
  unfold askAuToStop; rw [hr]

/-! ## The answers of the cursors that FORMAT closes (R123, R127) -/

/-- The HP after responses have been posted one after another. -/
def Hp.postAll (l : List Response) (h : Hp) : Hp := l.foldl (fun h r => h.post r) h

/-- The answer of the fetch parked on a cursor, if there is one. -/
def Cursor.parkedAnswer (r : Result) (x : Cursor) : List Response :=
  if x.state = .parked then (x.fetchTag.map (fun tag => Response.bare tag r x.fetchLost)).toList else []

theorem answerParked_eq (r : Result) (c : Fin 4) :
    answerParked r c s = s.onHp (Hp.postAll ((s.cu.cursors[c]).parkedAnswer r)) := by
  unfold answerParked Cursor.parkedAnswer Cursor.parkedTag
  split_ifs with hst
  · cases (s.cu.cursors[c]).fetchTag <;> rfl
  · rfl

/-- The answers leave the cursors as they are, so each is that of its cursor before them all. -/
theorem foldl_answerParked_eq (r : Result) (l : List (Fin 4)) : l.foldl (fun s c => answerParked r c s) s =
    s.onHp (Hp.postAll (l.flatMap (fun c => (s.cu.cursors[c]).parkedAnswer r))) := by
  induction l generalizing s with
  | nil => rfl
  | cons c l ih =>
    rw [List.foldl_cons, ih, answerParked_eq]
    simp [State.onHp, Hp.postAll]

/-- What an update of one element keeps of it, it keeps of every element. -/
theorem vmod_getElem_of_same {α β : Type} {n : Nat} {f : α → α} {p : α → β} (hf : ∀ x, p (f x) = p x) (v : Vector α n)
    (i c : Fin n) : p (vmod v i f)[c] = p v[c] := by
  unfold vmod
  simp only [Fin.getElem_fin, Vector.getElem_set]
  split
  · next h => simp only [hf, h]
  · rfl

theorem closeScanning_of_none (h : ∀ x, s.cu.slot = some x → x.scan = none) : closeScanning s = s := by
  unfold closeScanning
  split
  · next e sc hslot => exact absurd (h _ hslot) nofun
  · rfl

theorem closeScanning_of_scan {x : Entry} {sc : Scan} (h : s.cu.slot = some { entry := x, scan := some sc }) :
    closeScanning s =
      { s with
        cu := { s.cu with
          slot := none
          cursors := vmod s.cu.cursors sc.cursor (fun c => { c with lost := sat32 (c.lost + sc.owed) }) }
        hp := Hp.post (Response.bare x.tag .closed (sc.skipped + sc.owed != 0))
          (if sc.owed = 0 then s.hp else { s.hp with events := s.hp.events ||| 0x20 }) } := by
  unfold closeScanning
  simp only [h]
  cases sc.owed <;> rfl

/-- FORMAT's close, with the state after the scanning command's answer given. -/
theorem closeCursors_eq {t : State} (h : closeScanning s = t) : closeCursors s =
    { t with
      cu := { t.cu with cursors := t.cu.cursors.map Cursor.closedByFormat, noOpen := true }
      js := { t.js with holdFloor := none, floorReports := [] }
      hp := t.hp.postAll ((fins 4).flatMap (fun c => (t.cu.cursors[c]).parkedAnswer .closed)) } := by
  unfold closeCursors
  simp only [h, foldl_answerParked_eq]
  rfl

/-! ## The clearing of all segments starts (R43) -/

theorem abandonClearing_of_none (z : Nat) (h : s.js.clearing = none) : abandonClearing z s = s := by
  unfold abandonClearing; rw [h]

theorem abandonClearing_of_some {g : Seg} (z : Nat) (h : s.js.clearing = some g) : abandonClearing z s =
    { s with mem := s.mem.cleared g z, js := { s.js with clearing := none } } := by
  unfold abandonClearing; rw [h]; rfl

/-- FORMAT's second phase begins, with the cursors closed. -/
def beginFormatting (z : Nat) (e : Entry) (s : State) : State :=
  setJsSlot (some { entry := e, phase := .formatClearing (committedCount s.js) })
    ((clearAll (abandonClearing z s)).onJs (fun j => { j with journal := .formatting }))

theorem beginFormatting_eq (z : Nat) : beginFormatting z e s =
    { s with
      js := { s.js with
        journal := .formatting, used := 0, head := 0, filling := 0, clearing := some 0
        index := Vector.replicate 64 (IndexEntry.empty .clearing)
        slot := some { entry := e, phase := .formatClearing (committedCount s.js) } }
      mem := match s.js.clearing with
        | some g => s.mem.cleared g z
        | none => s.mem } := by
  rw [beginFormatting]
  cases hcl : s.js.clearing with
  | none => rw [abandonClearing_of_none z hcl]; rfl
  | some g => rw [abandonClearing_of_some z hcl]; rfl

theorem exec_auStopped_of_stopping (z : Nat) (ha : s.js.auStopped = true)
    (h : s.js.slot = some { entry := e, phase := .formatStopping }) :
    exec (.auStopped z) s = .next (beginFormatting z e (closeCursors (s.onJs (fun j => { j with auStopped := false })))) := by
  change execAuStopped z s = _
  unfold execAuStopped
  rw [ha, h]; rfl

end

/-! ## The statement on FORMAT's first two phases -/

/-- Settles O21: the first phase by its branches; AU_STOPPED as the close of the cursors, by whether a scan is in flight, then
the beginning of the second phase. -/
theorem formatStopsAndClears : Obligations.FormatStopsAndClears := by
  unfold Obligations.FormatStopsAndClears
  refine fun s e => ⟨fun hslot hop => ?_, fun z ha hslot => ?_⟩
  · have takes : withJs 0x20 format s = format e s := withJs_of_dispatched format hslot hop rfl
    refine ⟨fun hbad => ?_, fun h0 hp hr => ?_, fun h0 hp hr => ?_⟩
    · exact congrArg _ (takes.trans (format_of_bad hbad))
    · exact congrArg _ (takes.trans ((format_of_good h0 hp).trans (askAuToStop_of_none hr)))
    · exact congrArg _ (takes.trans ((format_of_good h0 hp).trans (askAuToStop_of_record hr)))
  · rw [exec_auStopped_of_stopping z ha hslot]
    refine ⟨fun hscan => ?_, fun x sc hscan => ?_⟩
    · rw [closeCursors_eq (closeScanning_of_none (by exact hscan)), beginFormatting_eq]
      rfl
    · rw [closeCursors_eq (closeScanning_of_scan (by exact hscan)), beginFormatting_eq]
      simp only [vmod_getElem_of_same (f := fun c : Cursor => { c with lost := sat32 (c.lost + sc.owed) })
        (p := Cursor.parkedAnswer .closed) (fun _ => rfl)]
      rfl

end Sys2Proof.Machine
end

section
/-! SUPPORT. The end of a clearing, and FORMAT's third phase, which follows the last (R27, R43, R44, R55). -/

namespace Sys2Proof.Machine

section

variable {s : State} {g : Seg}

/-! ## The end of a clearing (R27) -/

/-- A clearing that has come to its end has zeroed the 2,048 bytes of its segment (R18). -/
theorem Memory.cleared_all (m : Memory) (g : Seg) : m.cleared g 256 = m.zero (g.val * 2048) 2048 := by
  simp [Memory.cleared, Memory.zeroUnits, unitAddr]

theorem prepared_eq : prepared g s =
    { s with
      mem := s.mem.zero (g.val * 2048) 2048
      js := { s.js with clearing := none, index := s.js.index.set g (IndexEntry.empty .prepared) } } := by
  rw [← Memory.cleared_all]; rfl

theorem exec_clearingEnd_of_clearing (hg : s.js.clearing = some g) (hc : s.pc.supply ≠ .coldInit) :
    exec .clearingEnd s = .next (if s.js.journal = .formatting then formatCleared g (prepared g s)
      else preparationCleared (prepared g s)) := by
  have hjournal : (prepared g s).js.journal = s.js.journal := rfl
  change execClearingEnd s = _
  unfold execClearingEnd
  rw [hg]
  dsimp only
  rw [if_neg (by exact hc), hjournal]
  cases s.js.journal <;> rfl

theorem preparationCleared_of_none (h : s.au.record = none) : preparationCleared s = s := by
  unfold preparationCleared; rw [h]

theorem preparationCleared_of_some {r : InProgress} (h : s.au.record = some r) :
    preparationCleared s = if r.phase = .waitingClear then openAndWrite r s else s := by
  unfold preparationCleared; rw [h]
  cases hr : r.phase <;> simp [hr]

theorem formatCleared_of_earlier {e : Entry} {n : Nat} (h : s.js.slot = some { entry := e, phase := .formatClearing n })
    (hg : g.val < 63) : formatCleared g s = s.onJs (fun j => { j with clearing := some (g + 1) }) := by
  unfold formatCleared; rw [h]; exact if_pos hg

theorem formatCleared_of_last {e : Entry} {n : Nat} (h : s.js.slot = some { entry := e, phase := .formatClearing n }) :
    formatCleared 63 s = formatThirdPhase e n s := by
  unfold formatCleared; rw [h]; rfl

end

/-! ## The statement on the end of a clearing -/

/-- Settles O22: the segment is zeroed and PREPARED, and then what the journal state and the record in progress ask for. -/
theorem clearingEndPreparesSegment : Obligations.ClearingEndPreparesSegment := by
  unfold Obligations.ClearingEndPreparesSegment
  refine fun s g hg hc => ⟨fun hj hr => ?_, fun r hj hr => ?_, fun e n hj hslot hlt => ?_, fun a ha hwf => ?_,
    fun a hlo hhi hwf => ?_⟩
  · rw [exec_clearingEnd_of_clearing hg hc, if_neg hj, preparationCleared_of_none (by exact hr), prepared_eq]
  · rw [exec_clearingEnd_of_clearing hg hc, if_neg hj, preparationCleared_of_some (by exact hr), prepared_eq]
  · rw [exec_clearingEnd_of_clearing hg hc, if_pos hj, formatCleared_of_earlier (by exact hslot) hlt, prepared_eq]
    rfl
  · rw [Memory.read_zero hwf, if_neg (by omega)]
  · rw [Memory.read_zero hwf, if_pos ⟨hlo, hhi⟩]
    rfl

end Sys2Proof.Machine
end

section
/-! SUPPORT. FORMAT's third phase: the steps 4 to 10 that make the new journal (R44). -/

namespace Sys2Proof.Machine

section

variable (s : State)

/-! ## The operations of the third phase, field by field -/

/-- A control block write request changes the write in progress and the pending flag alone (R37). -/
theorem requestCopy_eq : requestCopy s =
    { s with js := { s.js with
      copyWrite := (requestCopy s).js.copyWrite, copyPending := (requestCopy s).js.copyPending } } := by
  unfold requestCopy; split <;> rfl

theorem requestCopy_copyWrite_isSome : (requestCopy s).js.copyWrite.isSome = true := by
  unfold requestCopy
  split
  · next h => exact h
  · rfl

/-- An event that does not happen joins nothing to the flags. -/
theorem latchIf_eq_or (b : Bool) (v : Event) : latchIf b v s =
    { s with hp := { s.hp with events := s.hp.events ||| (if b then 1#8 <<< v.member else 0) } } := by
  cases b
  · simp [latchIf]
  · rfl

theorem openStates_eq (g : Seg) (cells : List Host.Cell) : openStates g cells s =
    { s with
      js := { s.js with
        filling := g, used := s.js.used + 1, index := s.js.index.set g (IndexEntry.empty .filling) }
      mem := s.mem.writeCells cells
      au := { s.au with fillPoint := 1 }
      hp := { s.hp with events := s.hp.events ||| (if s.js.used + 1 = s.js.mark then 0x10 else 0) } } := by
  rw [openStates, latchIf_eq_or]
  simp only [beq_iff_eq]
  rfl

theorem placeFormatted_eq (q : SysRequest) : placeFormatted q s =
    { s with
      au := { s.au with
        systemLane := q :: s.au.systemLane.take 3
        systemLost := if 4 ≤ s.au.systemLane.length then min (s.au.systemLost + 1) 65535 else s.au.systemLost }
      hp := { s.hp with events := s.hp.events ||| (if 4 ≤ s.au.systemLane.length then 0x20 else 0) } } := by
  unfold placeFormatted
  by_cases h : 4 ≤ s.au.systemLane.length
  · simp only [h, decide_true, if_true]; rfl
  · simp [h, State.onAu]

/-- Steps 6 to 8 of FORMAT, between preparation and the control block write of step 9: the numbering, the watermarks and the
reclaimed counter. -/
def restartNumbers (e : Entry) (s : State) : State :=
  { s with
    au := { s.au with nextSeq := if e.renumbers then .value 1 else s.au.nextSeq }
    cp := s.cp.forgetWatermarks
    js := { s.js with reclaimed := 0 } }

/-- With segment 1 PREPARED its preparation finds nothing to do, and the write that the open has begun or found makes the
request of step 9 wait. -/
theorem thirdPhase_whole (e : Entry) (h : (s.js.index[1]).state = .prepared) : thirdPhase e 6 s =
    (restartNumbers e (setBlocked .clear (requestCopy (openFirst s)))).onJs (fun j => { j with copyPending := true }) := by
  let nextState (t : State) : SegState := (t.js.index[t.js.next]).state
  have hopen : nextState (openFirst s) = .prepared := by
    refine (congrArg nextState (openStates_eq s 0 _)).trans ?_
    simpa [nextState, Js.next] using h
  have hnext : nextState (requestCopy (openFirst s)) = .prepared :=
    (congrArg nextState (requestCopy_eq (openFirst s))).trans hopen
  rw [← requestCopy_of_writing _ (by exact requestCopy_copyWrite_isSome (openFirst s)),
    ← prepare_of_clearing_or_prepared _ (.inr hnext)]
  rfl

/-- The last step of FORMAT, field by field. -/
theorem formatReady_eq (e : Entry) (n : Nat) (w : CopyWait) : formatReady e n w s =
    { s with
      au := { s.au with
        paused := false
        systemLane := SysRequest.make .formatted e.renumbers.toNat (be32 n) :: s.au.systemLane.take 3
        systemLost := if 4 ≤ s.au.systemLane.length then min (s.au.systemLost + 1) 65535 else s.au.systemLost }
      hp := { s.hp with events := s.hp.events ||| (if 4 ≤ s.au.systemLane.length then 0x20 else 0) }
      cu := { s.cu with noOpen := false, notices := [], reclaims := [] }
      js := { s.js with journal := .ready, slot := some { entry := e, phase := .formatEnding false (some w) } } } := by
  rw [formatReady, placeFormatted_eq]; rfl

/-- The third phase, field by field but for the control block write that the open begins or finds. -/
theorem formatThirdPhase_eq (e : Entry) (n : Nat) (h : (s.js.index[1]).state = .prepared) : formatThirdPhase e n s =
    { s with
      js := { s.js with
        journal := .ready, filling := 0, used := s.js.used + 1, index := s.js.index.set 0 (IndexEntry.empty .filling)
        blocked := .clear, reclaimed := 0
        copyWrite := (requestCopy (openFirst s)).js.copyWrite, copyPending := true
        slot := some { entry := e, phase := .formatEnding false (some (carrier s)) } }
      mem := s.mem.writeCells (headerCells 0 .filling 0)
      au := { s.au with
        fillPoint := 1, paused := false, nextSeq := if e.renumbers then .value 1 else s.au.nextSeq
        systemLane := SysRequest.make .formatted e.renumbers.toNat (be32 n) :: s.au.systemLane.take 3
        systemLost := if 4 ≤ s.au.systemLane.length then min (s.au.systemLost + 1) 65535 else s.au.systemLost }
      cp := s.cp.forgetWatermarks
      cu := { s.cu with noOpen := false, notices := [], reclaims := [] }
      hp := { s.hp with
        events := s.hp.events ||| (if s.js.used + 1 = s.js.mark then 0x10 else 0)
          ||| (if 4 ≤ s.au.systemLane.length then 0x20 else 0) } } := by
  rw [formatThirdPhase, thirdPhase_whole s e h, formatReady_eq]
  have hcopy := requestCopy_eq (openFirst s)
  generalize (requestCopy (openFirst s)).js.copyWrite = w at hcopy ⊢
  rw [hcopy, openFirst, openStates_eq]
  simp only [restartNumbers, setBlocked, State.onJs]
  rfl

end

/-! ## The statement on FORMAT's third phase -/

theorem Entry.renumbers_iff (e : Entry) : e.renumbers = true ↔ e.param 0 = 1 := beq_iff_eq

theorem Entry.renumbers_toNat (e : Entry) : e.renumbers.toNat = if e.param 0 = 1 then 1 else 0 := by
  by_cases h : e.param 0 = 1 <;> simp [Entry.renumbers, h]

/-- Settles O23: FORMAT's last clearing ends in the third phase, which `formatThirdPhase_eq` gives field by field. -/
theorem formatEndsWithANewJournal : Obligations.FormatEndsWithANewJournal := by
  unfold Obligations.FormatEndsWithANewJournal
  intro s e n hclear hc hj hslot hused hhead hfill hprep full writing
  have hprep' : ((prepared 63 s).js.index[1]).state = .prepared := by
    rw [prepared_eq]; simpa using hprep
  have hwriting (h : writing = true) : (requestCopy (openFirst (prepared 63 s))).js.copyWrite = s.js.copyWrite := by
    have hopen : (openFirst (prepared 63 s)).js.copyWrite = s.js.copyWrite :=
      congrArg (·.js.copyWrite) (openStates_eq (prepared 63 s) 0 _)
    rw [requestCopy_of_writing _ (by rw [hopen]; exact h)]
    exact hopen
  rw [exec_clearingEnd_of_clearing hclear hc, if_pos hj, formatCleared_of_last (by exact hslot),
    formatThirdPhase_eq _ e n hprep']
  refine ⟨_, rfl, rfl, hhead, rfl, ?_, ?_, rfl, rfl, ?_, ?_, ?_, rfl, rfl, rfl, requestCopy_copyWrite_isSome _, hwriting, rfl,
    ?_, rfl, rfl, rfl, rfl, rfl⟩
  · exact congrArg (· + 1) hused
  · simp
  · simp [prepared_eq, headerCells, unitAddr]
  · simp [prepared_eq, full, SysRequest.make, SysKind.code, Entry.renumbers_iff, Entry.renumbers_toNat]
  · exact fun k => by simp [Cp.forgetWatermarks, prepared]
  · simp [prepared_eq, hused, full, eq_comm]

end Sys2Proof.Machine
end

section
/-! SUPPORT. Runs of bytes in the record memory: what is read after they are written (R18). -/

namespace Sys2Proof.Machine

theorem cellsAt_cons (x : Nat) (b : Byte) (l : List Byte) : cellsAt x (b :: l) = (x, b) :: cellsAt (x + 1) l := by
  simp [cellsAt, List.range_succ_eq_map, Nat.add_assoc, Nat.add_comm 1]

theorem Memory.writeCells_append (m : Memory) (k l : List Host.Cell) :
    m.writeCells (k ++ l) = (m.writeCells k).writeCells l := List.foldl_append

/-- A run of bytes written from `x` on is read there, and every other byte as before. -/
theorem Memory.read_cellsAt {m : Memory} (h : m.wf = true) {x : Nat} {l : List Byte} (hx : x + l.length ≤ memorySize)
    (a : Nat) : (m.writeCells (cellsAt x l)).read a = if x ≤ a ∧ a < x + l.length then l.getD (a - x) 0 else m.read a := by
  induction l generalizing x with
  | nil => exact (if_neg (by simp)).symm
  | cons b l ih =>
    rw [List.length_cons] at hx ⊢
    have hlater : ∀ c ∈ cellsAt (x + 1) l, c.1 ≠ x := fun c hc => by
      have := mem_cellsAt hc
      omega
    rw [cellsAt_cons, Memory.read_writeCells_cons h b (by omega) hlater, ih (by omega)]
    by_cases hax : a = x
    · simp [hax]
    · rw [if_neg hax]
      by_cases hin : x + 1 ≤ a ∧ a < x + 1 + l.length
      · obtain ⟨k, rfl⟩ : ∃ k, a = x + (k + 1) := ⟨a - x - 1, by omega⟩
        rw [if_pos hin, if_pos (by omega), Nat.add_sub_cancel_left, List.getD_cons_succ]
        congr 1
        omega
      · rw [if_neg hin, if_neg (by omega)]

theorem segHeader_length (st : SegState) (first : Nat) : (segHeader st first).length = 8 := by
  simp [segHeader, be32]

theorem segment_inside (g : Seg) : g.val * 2048 + 2048 ≤ memorySize := by
  have hg := g.isLt
  unfold memorySize
  omega

/-- Distinct segments share no byte (R18). -/
theorem segment_disjoint {f g : Seg} (h : f ≠ g) :
    f.val * 2048 + 2048 ≤ g.val * 2048 ∨ g.val * 2048 + 2048 ≤ f.val * 2048 := by
  have hne : f.val ≠ g.val := fun hv => h (Fin.ext hv)
  omega

theorem headerCells_eq (g : Seg) (st : SegState) (first : Nat) :
    headerCells g st first = cellsAt (g.val * 2048) (segHeader st first) := by
  simp [headerCells, unitAddr]

theorem Memory.read_headerCells {m : Memory} (h : m.wf = true) (g : Seg) (st : SegState) (first a : Nat) :
    (m.writeCells (headerCells g st first)).read a =
      if g.val * 2048 ≤ a ∧ a < g.val * 2048 + 8 then (segHeader st first).getD (a - g.val * 2048) 0 else m.read a := by
  have hin : g.val * 2048 + (segHeader st first).length ≤ memorySize := by
    rw [segHeader_length]
    exact (Nat.add_le_add_left (by decide) _).trans (segment_inside g)
  rw [headerCells_eq, Memory.read_cellsAt h hin, segHeader_length]

/-- The four bytes of a number are read back as the number. -/
theorem rd32_be32 {n : Nat} (hn : n < 4294967296) (b : Byte) (l : List Byte) : rd32 (b :: (be32 n ++ l)) 1 = n := by
  simp [rd32, rd16, rd8, be32]
  omega

theorem Memory.bytes_eq_of_read {m : Memory} {x n : Nat} {l : List Byte} (hl : l.length = n)
    (h : ∀ i < n, m.read (x + i) = l.getD i 0) : m.bytes x n = l := by
  subst hl
  refine List.ext_getElem (by simp [Memory.bytes]) fun i _ hi => ?_
  simp [Memory.bytes, h i hi, hi]

theorem headerFirst_of_read {m : Memory} {g : Seg} {st : SegState} {first : Nat} (hn : first < 4294967296)
    (h : ∀ i < 8, m.read (g.val * 2048 + i) = (segHeader st first).getD i 0) : headerFirst m g = first := by
  have hbytes : m.bytes (unitAddr g 0) 8 = segHeader st first :=
    Memory.bytes_eq_of_read (segHeader_length st first) (by simpa [unitAddr] using h)
  rw [headerFirst, hbytes]
  exact rd32_be32 hn _ _

end Sys2Proof.Machine
end

section
/-! SUPPORT. The request for the next segment: it opens a PREPARED segment and writes the record there, or the record waits or
is refused (R23, R25, R54 to R57, R60). -/

namespace Sys2Proof.Machine

section

variable {s : State} {r : InProgress}

/-! ## A request that waits (R54) -/

/-- The record in progress waits for a clearing. -/
def waitForClearing (r : InProgress) (s : State) : State := setRecord (some { r with phase := .waitingClear }) s

theorem nextSegmentRequest_of_clearing (h : (s.js.index[s.js.next]).state = .clearing) :
    nextSegmentRequest r s = waitForClearing r s := by
  unfold nextSegmentRequest; rw [h]; rfl

theorem nextSegmentRequest_of_free (h : (s.js.index[s.js.next]).state = .free) :
    nextSegmentRequest r s = waitForClearing r (prepare s) := by
  unfold nextSegmentRequest; rw [h]; rfl

theorem nextSegmentRequest_of_sealed_unheld (h : (s.js.index[s.js.next]).state = .sealed) (hp : s.js.policy = .wrap)
    (hh : nextHeld s = false) : nextSegmentRequest r s = waitForClearing r (prepare s) := by
  unfold nextSegmentRequest; rw [h, hp]
  simp only [hh, Bool.false_eq_true, if_false]
  rfl

theorem nextSegmentRequest_of_prepared (h : (s.js.index[s.js.next]).state = .prepared) :
    nextSegmentRequest r s = openAndWrite r s := by
  unfold nextSegmentRequest; rw [h]

end

/-- Settles O27: the state of the next segment decides, and of a SEALED one the policy and the holds. -/
theorem nextSegmentWaitsOrRefuses : Obligations.NextSegmentWaitsOrRefuses := by
  unfold Obligations.NextSegmentWaitsOrRefuses
  intro s r hr hphase
  have hexec := exec_nextSegmentRequest_of_requesting s hr hphase
  refine ⟨fun hst => ?_, fun hst => ?_, fun hst hp hh => ?_, fun tag ho hidle hask => ⟨fun hst hp => ?_, fun hst hp hh => ?_⟩⟩
  · rw [hexec, nextSegmentRequest_of_clearing hst]; rfl
  · rw [hexec, nextSegmentRequest_of_free hst]; rfl
  · rw [hexec, nextSegmentRequest_of_sealed_unheld hst hp hh]; rfl
  · rw [hexec, nextSegmentRequest_of_sealed s r hst (.inl ⟨hp, rfl⟩), refuse_of_host s _ ho hidle hask]; rfl
  · rw [hexec, nextSegmentRequest_of_sealed s r hst (.inr ⟨hp, hh, rfl⟩), refuse_of_host s _ ho hidle hask]; rfl

section

variable (s : State)

/-! ## The open of the next segment (R23, R25, R26) -/

theorem prepare_filling : (prepare s).js.filling = s.js.filling := by
  unfold prepare
  (repeat' split) <;> simp [setBlocked, startClearing, Js.onEntry, reclaim_js]

/-- The JS, the headers, the fill point and the HIGH event of an open, before the write request and the preparation. -/
def opened (g : Seg) (first : Nat) (s : State) : State :=
  { s with
    mem := s.mem.writeCells (openCells g first s)
    js := { s.js with
      filling := g, used := s.js.used + 1
      index := (s.js.index.set s.js.filling { s.js.index[s.js.filling] with state := .sealed }).set g
        (IndexEntry.empty .filling) }
    au := { s.au with fillPoint := 1 }
    hp := { s.hp with events := s.hp.events ||| (if s.js.used + 1 = s.js.mark then 0x10 else 0) } }

theorem openFor_eq (g : Seg) (first : Nat) : openFor g first s = prepare (requestCopy (opened g first s)) := by
  rw [openFor, openStates_eq]; rfl

theorem openFor_filling (g : Seg) (first : Nat) : (openFor g first s).js.filling = g := by
  rw [openFor_eq, prepare_filling, requestCopy_js]; rfl

theorem openFor_au (g : Seg) (first : Nat) : (openFor g first s).au = { s.au with fillPoint := 1 } := by
  simp [openFor_eq, opened]

theorem openFor_mem (g : Seg) (first : Nat) : (openFor g first s).mem = s.mem.writeCells (openCells g first s) := by
  simp [openFor_eq, opened]

/-- An open of the segment after the filling one leaves the two headers changed, and no other byte. -/
theorem read_openFor {s : State} (h : s.mem.wf = true) {g : Seg} (hne : s.js.filling ≠ g) (first a : Nat) :
    (openFor g first s).mem.read a =
      if g.val * 2048 ≤ a ∧ a < g.val * 2048 + 8 then (segHeader .filling first).getD (a - g.val * 2048) 0
      else if s.js.filling.val * 2048 ≤ a ∧ a < s.js.filling.val * 2048 + 8 then
        (segHeader .sealed (headerFirst s.mem s.js.filling)).getD (a - s.js.filling.val * 2048) 0
      else s.mem.read a := by
  have hdis := segment_disjoint hne
  rw [openFor_mem, openCells, Memory.writeCells_append, Memory.read_headerCells (Memory.wf_writeCells _ h),
    Memory.read_headerCells h]
  have hsep : s.js.filling.val * 2048 ≤ a ∧ a < s.js.filling.val * 2048 + 8 →
      ¬ (g.val * 2048 ≤ a ∧ a < g.val * 2048 + 8) := fun _ => by omega
  rw [ite_ite_comm (h := hsep)]

theorem headerFirst_openFor {s : State} (h : s.mem.wf = true) {g : Seg} (hne : s.js.filling ≠ g) {first : Nat}
    (hn : first < 4294967296) : headerFirst (openFor g first s).mem g = first := by
  refine headerFirst_of_read (st := .filling) hn fun i hi => ?_
  rw [read_openFor h hne, if_pos (by omega), Nat.add_sub_cancel_left]

/-- A record of at most 232 payload bytes written at unit 1 of the segment just opened lies beside both headers. -/
theorem read_openFor_record {s : State} (h : s.mem.wf = true) {g : Seg} (hne : s.js.filling ≠ g) (first : Nat)
    {l : List Byte} {k : Nat} (hl : l.length = 24 + k) (hk : k ≤ 232) (a : Nat) :
    ((openFor g first s).mem.writeCells (cellsAt (g.val * 2048 + 8) l)).read a =
      if g.val * 2048 ≤ a ∧ a < g.val * 2048 + 8 then (segHeader .filling first).getD (a - g.val * 2048) 0
      else if s.js.filling.val * 2048 ≤ a ∧ a < s.js.filling.val * 2048 + 8 then
        (segHeader .sealed (headerFirst s.mem s.js.filling)).getD (a - s.js.filling.val * 2048) 0
      else if g.val * 2048 + 8 ≤ a ∧ a < g.val * 2048 + 32 + k then l.getD (a - (g.val * 2048 + 8)) 0
      else s.mem.read a := by
  have hdis := segment_disjoint hne
  have hin : g.val * 2048 + 8 + l.length ≤ memorySize := le_trans (by omega) (segment_inside g)
  have hnew : g.val * 2048 + 8 ≤ a ∧ a < g.val * 2048 + 32 + k →
      ¬ (g.val * 2048 ≤ a ∧ a < g.val * 2048 + 8) := fun _ => by omega
  have hold : g.val * 2048 + 8 ≤ a ∧ a < g.val * 2048 + 32 + k →
      ¬ (s.js.filling.val * 2048 ≤ a ∧ a < s.js.filling.val * 2048 + 8) := fun _ => by omega
  rw [Memory.read_cellsAt (openFor_wf h g first) hin, read_openFor h hne, hl,
    show g.val * 2048 + 8 + (24 + k) = g.val * 2048 + 32 + k by omega, ite_ite_comm (h := hnew), ite_ite_comm (h := hold)]

/-! ## The write step begins (R24, R56, R57) -/

/-- The byte writes with which the record in progress, numbered `n`, begins: the header rewrite of R24, then the record with
state OPEN. -/
def beginCells (n : Nat) (r : InProgress) (s : State) : List Host.Cell :=
  (if s.au.fillPoint = 1 ∧ headerFirst s.mem s.js.filling ≠ n then headerCells s.js.filling .filling n else [])
    ++ cellsAt (unitAddr s.js.filling s.au.fillPoint) ((stampRecord s r.data).openBytes n)

/-- The record in progress in its write step. -/
def InProgress.begun (opened undo : List Host.Cell) (n : Nat) (s : State) (r : InProgress) : InProgress :=
  { r with
    data := stampRecord s r.data, phase := .writing, seq := n, seg := s.js.filling, unit := s.au.fillPoint
    writes := opened ++ beginCells n r s
      ++ commitCells (unitAddr s.js.filling s.au.fillPoint) (stampRecord s r.data) n
    undo := undo ++ s.mem.before (beginCells n r s) }

theorem stampRecord_payload (d : Record) : (stampRecord s d).payload = d.payload := by
  unfold stampRecord; split <;> rfl

theorem beginWrite_of_value {s : State} {n : Nat} (h : s.au.nextSeq = .value n) (opened undo : List Host.Cell)
    (r : InProgress) : beginWrite opened undo r s =
      { s with
        mem := s.mem.writeCells (beginCells n r s)
        au := { s.au with
          nextSeq := NextSeq.after n
          fillPoint := min 256 (s.au.fillPoint + sizeUnits r.data.payload.length)
          record := some (r.begun opened undo n s) } } := by
  unfold beginWrite; rw [h, ← stampRecord_payload s r.data]; rfl

theorem openAndWrite_of_value {s : State} {n : Nat} (h : s.au.nextSeq = .value n) (r : InProgress) : openAndWrite r s =
    beginWrite (openCells s.js.next n s) (s.mem.before (openCells s.js.next n s)) r (openFor s.js.next n s) := by
  unfold openAndWrite; rw [h]

/-- The header that the open has written holds the record's own number, so R24 rewrites nothing. -/
theorem beginCells_openFor {s : State} (h : s.mem.wf = true) {g : Seg} (hne : s.js.filling ≠ g) {n : Nat}
    (hn : n < 4294967296) (r : InProgress) :
    beginCells n r (openFor g n s) = cellsAt (g.val * 2048 + 8) ((stampRecord s r.data).openBytes n) := by
  have hstamp : stampRecord (openFor g n s) r.data = stampRecord s r.data := by simp [stampRecord]
  have hheader : ¬ headerFirst (openFor g n s).mem g ≠ n := not_not.2 (headerFirst_openFor h hne hn)
  rw [beginCells, openFor_filling, openFor_au, if_neg fun hrw => hheader hrw.2, hstamp]
  rfl

theorem openBytes_length (d : Record) (n : Nat) : (d.openBytes n).length = 24 + d.payload.length := by
  simp [Record.openBytes, Record.header, be16, be32, Stamp.bytes]
  omega

theorem openBytes_eq (d : Record) (n : Nat) : d.openBytes n =
    [0x3C, byte (sizeUnits d.payload.length), byte d.payload.length,
        byte (d.cls % 16 + 16 * d.source.code + 128 * d.unset.toNat), byte d.node, byte d.nodeSeq]
      ++ be16 0 ++ be32 n ++ be32 d.stamp.seconds ++ be16 d.stamp.ticks ++ be16 d.age ++ be16 0 ++ be16 0 ++ d.payload := by
  simp [Record.openBytes, Record.header, Stamp.bytes, Record.byte3, RecState.byte]

theorem stampRecord_eq (d : Record) : stampRecord s d =
    if d.source = .capture then d
    else { d with stamp := { seconds := s.tb.seconds, ticks := s.tb.ticks }, unset := !s.tb.isSet } := by
  unfold stampRecord
  cases h : d.source <;> rfl

end

/-- A segment is not the one after it. -/
theorem Js.filling_ne_next (j : Js) : j.filling ≠ j.next := by
  unfold Js.next
  generalize j.filling = f
  revert f
  decide

/-- The event flag of an open, written as the flags with or without it. -/
theorem Hp.latched_if (h : Hp) (p : Prop) [Decidable p] (b : BitVec 8) :
    { h with events := h.events ||| (if p then b else 0) } = if p then { h with events := h.events ||| b } else h := by
  split <;> simp

/-- Settles O26: the request opens the segment, whose header then holds the record's number, and begins the write at unit 1;
what memory reads after both is `read_openFor_record`. -/
theorem nextSegmentOpens : Obligations.NextSegmentOpens := by
  unfold Obligations.NextSegmentOpens
  intro s r n hwf hr hphase hseq hn hlen f g len size d bytes open' ready hprep
  have hne : f ≠ g := s.js.filling_ne_next
  have hd : stampRecord s r.data = d := stampRecord_eq s r.data
  have hdlen : d.payload.length = len := by rw [← hd, stampRecord_payload]
  have hbytes : d.openBytes n = bytes := by rw [openBytes_eq, hdlen]; rfl
  have hopen : opened g n s = open' := by
    rw [opened, Hp.latched_if, openCells, headerCells_eq, headerCells_eq]
  have hready : openFor g n s = ready := by rw [openFor_eq, hopen]
  have hau : ready.au = { s.au with fillPoint := 1 } := by rw [← hready, openFor_au]
  have hfill : min 256 (ready.au.fillPoint + sizeUnits r.data.payload.length) = 1 + size := by
    rw [hau]
    change min 256 (1 + (3 + (len + 7) / 8)) = 1 + (3 + (len + 7) / 8)
    omega
  have hcells : beginCells n r ready = cellsAt (g.val * 2048 + 8) bytes := by
    rw [← hready, beginCells_openFor hwf hne hn, hd, hbytes]
  have hexec : exec .nextSegmentRequest s =
      .next (beginWrite (openCells g n s) (s.mem.before (openCells g n s)) r ready) := by
    rw [exec_nextSegmentRequest_of_requesting s hr hphase, nextSegmentRequest_of_prepared hprep,
      openAndWrite_of_value hseq, ← hready]
    rfl
  rw [beginWrite_of_value (by rw [hau]; exact hseq), hfill, hcells, hau] at hexec
  refine ⟨_, _, hexec, rfl, ?_, rfl, rfl, rfl, ?_, ?_, fun a => ?_⟩
  · exact (by rw [← hready]; simp [stampRecord] : stampRecord ready r.data = stampRecord s r.data).trans hd
  · exact (congrArg (·.js.filling) hready).symm.trans (openFor_filling s g n)
  · exact congrArg (·.fillPoint) hau
  · have hlength : bytes.length = 24 + len := by rw [← hbytes, openBytes_length, hdlen]
    refine Eq.trans ?_ (read_openFor_record hwf hne n hlength hlen a)
    rw [hready]

end Sys2Proof.Machine
end

section
/-! SUPPORT. Abrupt stops: what each of the writes in flight leaves, and what a stop leaves of the main domain (R186, R187). -/

namespace Sys2Proof.Machine

section

variable {s : State}

/-! ## What each write in flight leaves (R187, R195) -/

theorem tearRecord_of_not_writing (n : Nat) (h : ∀ r, s.au.record = some r → r.phase ≠ .writing) : tearRecord n s = s := by
  unfold tearRecord
  split
  · next r hr =>
    have hne := h r hr
    split
    · next hp => exact absurd hp hne
    all_goals rfl
  · rfl

theorem tearRecord_of_writing (n : Nat) {r : InProgress} (hr : s.au.record = some r) (hp : r.phase = .writing) :
    tearRecord n s = s.onMem (fun m => (m.writeCells r.undo).writeCells (r.writes.take n)) := by
  unfold tearRecord; rw [hr]; simp only [hp]

theorem lastOfFormat_isSome_iff : (lastOfFormat s).isSome = true ↔
    s.js.clearing = some 63 ∧ ∃ e n, s.js.slot = some { entry := e, phase := .formatClearing n } := by
  unfold lastOfFormat
  split
  · next e n hslot => simp [hslot]
  · next hslot =>
    refine iff_of_false (by simp) ?_
    rintro ⟨-, e, n, h⟩
    exact hslot e n h

/-- The open of segment 0 comes after the last clearing of FORMAT or of cold initialisation, and after no other. -/
theorem firstOpenNext_iff : firstOpenNext s = true ↔ s.js.clearing = some 63 ∧
    (s.pc.supply = .coldInit ∨ ∃ e n, s.js.slot = some { entry := e, phase := .formatClearing n }) := by
  unfold firstOpenNext
  rw [Bool.or_eq_true, lastOfFormat_isSome_iff, Bool.and_eq_true, beq_iff_eq, beq_iff_eq, and_or_left, or_comm,
    and_comm (a := s.pc.supply = .coldInit)]

/-- Without the open of segment 0 the stop abandons the clearing where it stands. -/
theorem tearClearing_of_not_open {cut : Cut} (h : firstOpenNext s = true → cut.zeroed ≠ 256) :
    tearClearing cut s = abandonClearing cut.zeroed s := by
  have hopen : ¬ (firstOpenNext s && cut.zeroed == 256) = true := by simpa using h
  exact if_neg hopen

theorem tearClearing_of_open {cut : Cut} (h : firstOpenNext s = true) (hz : cut.zeroed = 256) :
    tearClearing cut s = (abandonClearing 256 s).onMem (·.writeCells ((headerCells 0 .filling 0).take cut.record)) := by
  have hopen : (firstOpenNext s && cut.zeroed == 256) = true := by simp [h, hz]
  rw [← hz]
  exact if_pos hopen

theorem tearClearing_of_none (cut : Cut) (h : s.js.clearing = none) : tearClearing cut s = s := by
  have hopen : ¬ firstOpenNext s = true := fun hf => by simp [(firstOpenNext_iff.1 hf).1] at h
  rw [tearClearing_of_not_open fun hf => absurd hf hopen, abandonClearing_of_none _ h]

theorem abandonClearing_copyWrite (z : Nat) : (abandonClearing z s).js.copyWrite = s.js.copyWrite := by
  unfold abandonClearing; split <;> rfl

theorem tearClearing_copyWrite (cut : Cut) : (tearClearing cut s).js.copyWrite = s.js.copyWrite := by
  unfold tearClearing
  dsimp only
  split <;> simp [abandonClearing_copyWrite]

theorem tearCopy_of_none (how : CopyCut) (h : s.js.copyWrite = none) : tearCopy how s = s := by
  unfold tearCopy; rw [h]

/-- What can stand in the copy that was being written: what it held, the whole new copy, or one with a wrong check. -/
def copyLeft (w : CopyWrite) (old new : ControlCopy) : Prop := new = old ∨ new = w.values ∨ new.checkOk = false

theorem tearCopy_of_some (how : CopyCut) {w : CopyWrite} (h : s.js.copyWrite = some w) :
    (w.target = .a → copyLeft w s.copyA (tearCopy how s).copyA ∧ (tearCopy how s).copyB = s.copyB) ∧
    (w.target = .b → copyLeft w s.copyB (tearCopy how s).copyB ∧ (tearCopy how s).copyA = s.copyA) := by
  unfold tearCopy
  rw [h]
  constructor <;> intro ht
  all_goals
    cases how with
    | untouched => exact ⟨.inl rfl, rfl⟩
    | torn => simp only [setCopy_eq, ht]; exact ⟨.inr (.inr rfl), rfl⟩
    | whole => simp only [setCopy_eq, ht]; exact ⟨.inr (.inl rfl), rfl⟩

theorem tearRepairs_of_not_scanning (n : Nat) (h : s.pc.scanning = false) : tearRepairs n s = s := if_neg (by simp [h])

/-! ## The battery domain after a stop -/

theorem tear_mem_of_quiet (cut : Cut) (hr : ∀ r, s.au.record = some r → r.phase ≠ .writing) (hc : s.js.clearing = none)
    (hs : s.pc.scanning = false) : (tear cut s).mem = s.mem := by
  rw [tear, tearRecord_of_not_writing _ hr, tearClearing_of_none _ hc, tearRepairs_of_not_scanning _ (by simpa using hs)]
  simp

/-- Of the copies a stop touches the one being written alone. -/
theorem tear_copies_of_none (cut : Cut) (h : s.js.copyWrite = none) :
    (tear cut s).copyA = s.copyA ∧ (tear cut s).copyB = s.copyB := by
  have hnone : (tearClearing cut (tearRecord cut.record s)).js.copyWrite = none := by
    simpa [tearClearing_copyWrite] using h
  simp [tear, tearCopy_of_none _ hnone]

theorem tear_copies_of_some (cut : Cut) {w : CopyWrite} (h : s.js.copyWrite = some w) :
    (w.target = .a → copyLeft w s.copyA (tear cut s).copyA ∧ (tear cut s).copyB = s.copyB) ∧
    (w.target = .b → copyLeft w s.copyB (tear cut s).copyB ∧ (tear cut s).copyA = s.copyA) := by
  have hsome : (tearClearing cut (tearRecord cut.record s)).js.copyWrite = some w := by
    simpa [tearClearing_copyWrite] using h
  simpa [tear] using tearCopy_of_some cut.copy hsome

/-! ## The main domain after a stop (R79, R180, R186) -/

/-- `t` is what an abrupt stop leaves of `s`, but for the supply state and the pins: the main domain has the values of START,
the TB counts on, and the battery domain holds what the writes in flight leave. -/
def Stopped (s t : State) : Prop :=
  t.js = Js.start ∧ t.au = Au.start ∧ t.cu = Cu.start ∧ t.wu = Wu.start ∧ t.cp = Cp.start ∧ t.hp = Hp.start ∧
    t.tb = Tb.atStart s.tb.seconds s.tb.ticks s.tb.isSet s.tb.beatPhase ∧ t.pc.latch = s.pc.latch ∧
    t.pc.reason = s.pc.reason ∧
    ((∀ r, s.au.record = some r → r.phase ≠ .writing) → s.js.clearing = none → s.pc.scanning = false → t.mem = s.mem) ∧
    (s.js.copyWrite = none → t.copyA = s.copyA ∧ t.copyB = s.copyB) ∧
    ∀ w, s.js.copyWrite = some w →
      (w.target = .a → copyLeft w s.copyA t.copyA ∧ t.copyB = s.copyB) ∧
      (w.target = .b → copyLeft w s.copyB t.copyB ∧ t.copyA = s.copyA)

theorem stopMain_of_powered (cut : Cut) (h : s.pc.supply.powered = true) : stopMain cut s = mainLost (tear cut s) := by
  rw [stopMain, if_pos h]

/-- In RESET the main domain runs nothing that a stop could cut. -/
theorem stopMain_of_unpowered (cut : Cut) (h : s.pc.supply.powered = false) : stopMain cut s = mainLost s := by
  rw [stopMain, if_neg (by simp [h])]

theorem stopMain_stopped (cut : Cut) : Stopped s (stopMain cut s) := by
  cases h : s.pc.supply.powered with
  | true =>
    rw [stopMain_of_powered cut h]
    refine ⟨rfl, rfl, rfl, rfl, rfl, rfl, ?_, ?_, ?_, tear_mem_of_quiet cut, tear_copies_of_none cut,
      fun w => tear_copies_of_some cut⟩
    all_goals simp [mainLost]
  | false =>
    rw [stopMain_of_unpowered cut h]
    exact ⟨rfl, rfl, rfl, rfl, rfl, rfl, rfl, rfl, rfl, fun _ _ _ => rfl, fun _ => ⟨rfl, rfl⟩,
      fun _ _ => ⟨fun _ => ⟨.inl rfl, rfl⟩, fun _ => ⟨.inl rfl, rfl⟩⟩⟩

/-- A stop changes no level at the pins and supplies. -/
theorem stopMain_pc (cut : Cut) :
    (stopMain cut s).pc = { s.pc with step := .idle, discarded := 0, scanning := false } := by
  unfold stopMain mainLost
  split <;> simp

/-! ## The rows (R178, R186) -/

theorem exec_resetAssert_of_powered (cut : Cut) (h : s.pc.supply.powered = true) : exec (.resetAssert cut) s =
    .next ((stopMain cut (s.onPc (fun p => { p with resetLow := true }))).onPc (fun p => { p with supply := .reset })) :=
  congrArg _ (if_pos h)

theorem exec_resetAssert_of_unpowered (cut : Cut) (h : s.pc.supply.powered = false) : exec (.resetAssert cut) s =
    .next (s.onPc (fun p => { p with resetLow := true })) := congrArg _ (if_neg (by simp [h]))

theorem exec_vmainLost_of_vbat (cut : Cut) (hm : s.pc.vmain = true) (hb : s.pc.vbat = true) : exec (.vmainLost cut) s =
    .next ((stopMain cut (s.onPc (fun p => { p with vmain := false }))).onPc (fun p => { p with supply := .retain })) :=
  congrArg _ ((if_pos hm).trans (if_pos (by rw [stopMain_pc]; exact hb)))

theorem exec_vmainLost_of_no_vbat (cut : Cut) (hm : s.pc.vmain = true) (hb : s.pc.vbat = false) :
    exec (.vmainLost cut) s = .next (enterOff (stopMain cut (s.onPc (fun p => { p with vmain := false })))) :=
  congrArg _ ((if_pos hm).trans (if_neg (by rw [stopMain_pc]; simp [hb])))

theorem exec_vbatFall_of_no_vmain (hb : s.pc.vbat = true) (hm : s.pc.vmain = false) :
    exec .vbatFall s = .next (enterOff (s.onPc (fun p => { p with vbat := false }))) :=
  congrArg _ ((if_pos hb).trans (if_neg (by simp [hm])))

end

/-! ## The statement on the supply table -/

/-- Settles O55: a stop leaves what `Stopped` says, from wherever it comes; the other rows change the PC alone. -/
theorem supplyStatesFollowTheTable : Obligations.SupplyStatesFollowTheTable := by
  unfold Obligations.SupplyStatesFollowTheTable
  intro s cut
  have hreset : Stopped s (stopMain cut (s.onPc (fun p => { p with resetLow := true }))) :=
    stopMain_stopped (s := s.onPc (fun p => { p with resetLow := true })) cut
  have hlost : Stopped s (stopMain cut (s.onPc (fun p => { p with vmain := false }))) :=
    stopMain_stopped (s := s.onPc (fun p => { p with vmain := false })) cut
  refine ⟨fun hp => ?_, fun hoff => ?_, rfl, fun hm hb hp => ?_, fun hm hb hsupply => ?_, fun hm hb => ?_,
    fun hm => ?_, fun hb hm => ?_, fun hb hm => ?_, rfl, rfl, fun made hrun => ?_⟩
  · rw [exec_resetAssert_of_powered cut hp]
    exact ⟨_, rfl, rfl, congrArg (·.resetLow) (stopMain_pc cut), hreset⟩
  · rw [exec_resetAssert_of_unpowered cut (by obtain h | h := hoff <;> rw [h] <;> rfl)]
    rfl
  · rw [exec_vmainLost_of_vbat cut hm hb]
    exact ⟨_, rfl, rfl, congrArg (·.vmain) (stopMain_pc cut), hlost⟩
  · rw [exec_vmainLost_of_vbat cut hm hb]
    have hquiet := stopMain_of_unpowered (s := s.onPc (fun p => { p with vmain := false })) cut
      (by simp [hsupply, Supply.powered])
    exact ⟨_, rfl, rfl, congrArg (·.vmain) (stopMain_pc cut), hlost, congrArg (·.mem) hquiet, congrArg (·.copyA) hquiet,
      congrArg (·.copyB) hquiet⟩
  · rw [exec_vmainLost_of_no_vbat cut hm hb]
    exact ⟨_, rfl, rfl, congrArg (·.vmain) (stopMain_pc cut), rfl, rfl⟩
  · exact congrArg _ (if_neg (by simp [hm]))
  · exact congrArg _ ((if_pos hb).trans (if_pos hm))
  · exact ⟨_, exec_vbatFall_of_no_vmain hb hm, rfl, rfl, rfl, rfl⟩
  · exact congrArg _ (if_neg hrun)

end Sys2Proof.Machine
end

section
/-! SUPPORT. Canonical memories are determined by what they read (R18), so writing back what the bytes of some writes held
before undoes those writes (R187). -/

namespace Sys2Proof.Machine

/-- No canonical memory lists an address beyond the record memory. -/
theorem Memory.read_outside {m : Memory} (h : m.wf = true) {a : Nat} (ha : memorySize ≤ a) : m.read a = unlisted := by
  induction m with
  | nil => rfl
  | cons c m ih =>
    obtain ⟨x, b⟩ := c
    obtain ⟨_, hx, _, hm⟩ := (Memory.wf_cons x b m).1 h
    have hne : x ≠ a := (hx.trans_le ha).ne
    rw [Memory.read, if_neg hne]
    exact ih hm

/-- The lowest listed address of one canonical memory is listed in the other when both read the same. -/
theorem Memory.head_le_of_read {x y : Nat} {b c : Byte} {m k : Memory} (h : Memory.wf ((x, b) :: m) = true)
    (hk : Memory.wf ((y, c) :: k) = true) (heq : ∀ a, Memory.read ((x, b) :: m) a = Memory.read ((y, c) :: k) a) :
    y ≤ x := by
  obtain ⟨hb, _, _, _⟩ := (Memory.wf_cons x b m).1 h
  obtain ⟨_, _, habove, _⟩ := (Memory.wf_cons y c k).1 hk
  by_contra hlt
  have hx := heq x
  rw [Memory.read, if_pos rfl, Memory.read, if_neg (by omega), Memory.read_above habove (by omega)] at hx
  exact hb hx

theorem Memory.ext_read {m k : Memory} (h : m.wf = true) (hk : k.wf = true) (heq : ∀ a, m.read a = k.read a) : m = k := by
  induction m generalizing k with
  | nil =>
    cases k with
    | nil => rfl
    | cons d k =>
      obtain ⟨y, c⟩ := d
      have hc := heq y
      rw [Memory.read, Memory.read, if_pos rfl] at hc
      exact absurd hc.symm ((Memory.wf_cons y c k).1 hk).1
  | cons d m ih =>
    obtain ⟨x, b⟩ := d
    cases k with
    | nil =>
      have hb := heq x
      rw [Memory.read, Memory.read, if_pos rfl] at hb
      exact absurd hb ((Memory.wf_cons x b m).1 h).1
    | cons d k =>
      obtain ⟨y, c⟩ := d
      obtain rfl : x = y :=
        le_antisymm (Memory.head_le_of_read hk h fun a => (heq a).symm) (Memory.head_le_of_read h hk heq)
      obtain ⟨_, _, hm, hwf⟩ := (Memory.wf_cons x b m).1 h
      obtain ⟨_, _, hk', hwf'⟩ := (Memory.wf_cons x c k).1 hk
      obtain rfl : b = c := by simpa [Memory.read] using heq x
      have hrest : m = k := ih hwf hwf' fun a => by
        by_cases ha : a ≤ x
        · rw [Memory.read_above hm ha, Memory.read_above hk' ha]
        · have := heq a
          rwa [Memory.read, if_neg (by omega), Memory.read, if_neg (by omega)] at this
      rw [hrest]

/-- An address that some writes reach, all with the same byte, reads that byte after them. -/
theorem Memory.read_writeCells_of_same {m : Memory} (h : m.wf = true) {a : Nat} (ha : a < memorySize) {v : Byte}
    {l : List Host.Cell} (hv : ∀ c ∈ l, c.1 = a → c.2 = v) (hmem : (∃ c ∈ l, c.1 = a) ∨ m.read a = v) :
    (m.writeCells l).read a = v := by
  induction l generalizing m with
  | nil => simpa [Memory.writeCells] using hmem
  | cons c l ih =>
    refine ih (m := m.write c.1 c.2) (Memory.wf_write c.1 c.2 h) (fun d hd => hv d (List.mem_cons_of_mem c hd)) ?_
    by_cases hc : c.1 = a
    · exact .inr (by rw [hc, Memory.read_write h _ _ _ ha, if_pos rfl, hv c List.mem_cons_self hc])
    · rw [Memory.read_write_other h c.2 hc]
      refine hmem.imp (fun ⟨d, hd, hda⟩ => ⟨d, ?_, hda⟩) id
      exact (List.mem_cons.1 hd).resolve_left fun hdc => hc (hdc ▸ hda)

/-- Writing back what the bytes held before undoes the writes. -/
theorem Memory.writeCells_before {m : Memory} (h : m.wf = true) (l : List Host.Cell) :
    (m.writeCells l).writeCells (m.before l) = m := by
  have hw := Memory.wf_writeCells l h
  have hu := Memory.wf_writeCells (m.before l) hw
  refine Memory.ext_read hu h fun a => ?_
  have hbefore : ∀ c ∈ m.before l, c.1 = a → c.2 = m.read a := by
    rintro _ hc rfl
    obtain ⟨d, _, rfl⟩ := List.mem_map.1 hc
    rfl
  by_cases ha : a < memorySize
  · refine Memory.read_writeCells_of_same hw ha hbefore ?_
    by_cases hin : ∃ c ∈ l, c.1 = a
    · obtain ⟨c, hc, hca⟩ := hin
      exact .inl ⟨_, List.mem_map_of_mem hc, hca⟩
    · exact .inr (Memory.read_writeCells_other h l fun c hc hca => hin ⟨c, hc, hca⟩)
  · rw [Memory.read_outside hu (by omega), Memory.read_outside h (by omega)]

end Sys2Proof.Machine
end

section
/-! SUPPORT. The record whose write step an arbiter's choice begins (R50, R53, R57). -/

namespace Sys2Proof.Machine

/-- No record is in its write step, and none can begin one: numbering gives no number (R14, R53). -/
def Au.neverWrites (a : Au) : Prop := (∀ n, a.nextSeq ≠ .value n) ∧ ∀ r, a.record = some r → r.phase ≠ .writing

/-- Without a number to give, the checks refuse whatever record is taken. -/
theorem appendChecks_neverWrites {s : State} (h : ∀ n, s.au.nextSeq ≠ .value n) (r : InProgress) :
    (appendChecks r s).au.neverWrites := by
  unfold appendChecks
  split
  · next n hn => exact absurd hn (h n)
  all_goals exact ⟨h, by rintro _ ⟨⟩; simp⟩

section

variable {s : State} (h : s.au.neverWrites)

include h

theorem setRecord_neverWrites {o : Option InProgress} (ho : ∀ r, o = some r → r.phase ≠ .writing) :
    (setRecord o s).au.neverWrites := ⟨h.1, ho⟩

theorem endAuHoldup_neverWrites : (endAuHoldup s).au.neverWrites := ⟨h.1, nofun⟩

theorem closeAu_neverWrites : (closeAu s).au.neverWrites := by
  unfold closeAu
  dsimp only
  split
  · exact endAuHoldup_neverWrites (by exact h)
  · split
    · exact endAuHoldup_neverWrites (appendChecks_neverWrites (by exact h.1) _)
    · exact appendChecks_neverWrites (by exact h.1) _

theorem enterHoldup_neverWrites : (enterHoldup s).au.neverWrites := by
  unfold enterHoldup
  dsimp only
  split
  · exact h
  · exact closeAu_neverWrites (by exact h)

theorem enterRun_neverWrites : (enterRun s).au.neverWrites := by
  unfold enterRun
  dsimp only
  (repeat' split) <;> simp [enterHoldup_neverWrites, h]

theorem afterAppend_neverWrites (o : Origin) : (afterAppend o s).au.neverWrites := by
  unfold afterAppend
  (repeat' split) <;> simp [enterRun_neverWrites, h]

theorem stopsAfterAppend_neverWrites : (stopsAfterAppend s).au.neverWrites := by
  unfold stopsAfterAppend
  split
  · exact closeAu_neverWrites h
  · split <;> exact h

theorem endAppend_neverWrites (o : Origin) : (endAppend o s).au.neverWrites := by
  unfold endAppend
  split
  · exact endAuHoldup_neverWrites h
  · exact stopsAfterAppend_neverWrites (afterAppend_neverWrites (setRecord_neverWrites (o := none) h nofun) o)

theorem refuse_neverWrites (code : Result) (r : InProgress) : (refuse code r s).au.neverWrites := by
  unfold refuse
  split
  case h_4 => exact setRecord_neverWrites h (by rintro _ ⟨⟩; simp)
  all_goals exact endAppend_neverWrites (by exact h) _

theorem settleRefusal_neverWrites : (settleRefusal s).au.neverWrites := by
  unfold settleRefusal
  split
  · split
    · exact refuse_neverWrites h _ _
    all_goals exact h
  · exact h

end

/-! ## Where a write step comes from -/

theorem settleRefusal_of_not_refused {s : State} {r : InProgress} (hr : s.au.record = some r)
    (hp : ∀ code, r.phase ≠ .refused code) : settleRefusal s = s := by
  unfold settleRefusal
  rw [hr]
  dsimp only
  split
  · next code hcode => exact absurd hcode (hp code)
  all_goals rfl

/-- A record taken from its lane is in its write step only when it has been numbered and fits. -/
theorem beginAppend_of_writing {s : State} {data : Record} {origin : Origin} {r : InProgress}
    (hr : (beginAppend data origin s).au.record = some r) (hp : r.phase = .writing) :
    ∃ n, s.au.nextSeq = .value n ∧ beginAppend data origin s = beginWrite [] [] (InProgress.take data origin) s := by
  by_cases hseq : ∃ n, s.au.nextSeq = .value n
  · obtain ⟨n, hn⟩ := hseq
    refine ⟨n, hn, ?_⟩
    have hw := beginWrite_of_value hn [] [] (InProgress.take data origin)
    unfold beginAppend appendChecks at hr ⊢
    simp only [hn] at hr ⊢
    split at hr
    · next hfits =>
      rw [if_pos hfits]
      exact settleRefusal_of_not_refused (r := (InProgress.take data origin).begun [] [] n s) (by rw [hw]) nofun
    · rw [settleRefusal_of_not_refused rfl (fun _ => AppendPhase.noConfusion)] at hr
      obtain rfl := Option.some.inj hr
      exact absurd hp nofun
  · have hnever : (beginAppend data origin s).au.neverWrites :=
      settleRefusal_neverWrites (appendChecks_neverWrites (fun n hn => hseq ⟨n, hn⟩) _)
    exact absurd hp (hnever.2 r hr)

/-- `t` is `s` after some record has been taken from its lane, with which no other block but the CP is written, and its append
has begun. -/
def takesRecord (s t : State) : Prop :=
  ∃ (data : Record) (origin : Origin) (u : State), t = beginAppend data origin u ∧
    u.mem = s.mem ∧ u.js = s.js ∧ u.pc = s.pc

theorem takeSystem_takesRecord (q : SysRequest) (s : State) : takesRecord s (takeSystem q s) :=
  ⟨_, _, _, rfl, rfl, rfl, rfl⟩

theorem takeHost_cases (s : State) : takeHost s = s ∨ takesRecord s (takeHost s) := by
  unfold takeHost
  split
  · exact .inr ⟨_, _, _, rfl, rfl, rfl, rfl⟩
  · exact .inl rfl

theorem takeCapture_cases (i : Fin 2) (k : Nat) (s : State) :
    takeCapture i k s = s ∨ takesRecord s (takeCapture i k s) := by
  unfold takeCapture
  split
  · exact .inr ⟨_, _, _, rfl, rfl, rfl, rfl⟩
  · exact .inl rfl

/-- The arbiter's choice changes nothing, or takes some record (R50). -/
theorem arbiterChoice_cases (s : State) : arbiterChoice s = s ∨ takesRecord s (arbiterChoice s) := by
  unfold arbiterChoice
  split
  · exact .inl rfl
  · split
    · exact .inr (takeSystem_takesRecord _ s)
    · split
      · split
        · exact takeHost_cases s
        · exact .inl rfl
      · split
        · exact takeHost_cases s
        · exact takeCapture_cases _ _ s

/-- A write step that the arbiter's choice begins is that of a record just numbered. -/
theorem arbiterChoice_of_writing {s : State} (hnone : s.au.record = none) {r : InProgress}
    (hr : (arbiterChoice s).au.record = some r) (hp : r.phase = .writing) :
    ∃ (q : InProgress) (u : State) (n : Nat), u.mem = s.mem ∧ u.js = s.js ∧ u.pc = s.pc ∧ u.au.nextSeq = .value n ∧
      arbiterChoice s = beginWrite [] [] q u := by
  obtain hsame | ⟨data, origin, u, htaken, hmem, hjs, hpc⟩ := arbiterChoice_cases s
  · rw [hsame, hnone] at hr
    exact absurd hr nofun
  · rw [htaken] at hr ⊢
    obtain ⟨n, hn, hbegun⟩ := beginAppend_of_writing hr hp
    exact ⟨_, u, n, hmem, hjs, hpc, hn, hbegun⟩

end Sys2Proof.Machine
end

section
/-! SUPPORT. What an abrupt stop leaves of the record memory, by the write in flight (R186, R187). -/

namespace Sys2Proof.Machine

section

variable {s : State} (cut : Cut)

/-! ## One write in flight -/

theorem tear_mem_of_writing {r : InProgress} (hr : s.au.record = some r) (hp : r.phase = .writing)
    (hc : s.js.clearing = none) (hs : s.pc.scanning = false) :
    (tear cut s).mem = (s.mem.writeCells r.undo).writeCells (r.writes.take cut.record) := by
  rw [tear, tearRecord_of_writing _ hr hp, tearClearing_of_none _ (by exact hc),
    tearRepairs_of_not_scanning _ (by simpa using hs)]
  simp

theorem tear_mem_of_clearing (hr : ∀ r, s.au.record = some r → r.phase ≠ .writing) (hs : s.pc.scanning = false) :
    (tear cut s).mem = (tearClearing cut s).mem := by
  rw [tear, tearRecord_of_not_writing _ hr, tearRepairs_of_not_scanning _ (by simpa using hs)]
  simp

theorem tear_mem_of_scanning (hr : s.au.record = none) (hc : s.js.clearing = none) (hw : s.js.copyWrite = none)
    (hs : s.pc.scanning = true) :
    (tear cut s).mem = s.mem.writeCells ((recoveryNow s).repairs.take cut.repairs) := by
  rw [tear, tearRecord_of_not_writing _ (by simp [hr]), tearClearing_of_none _ hc, tearCopy_of_none _ hw]
  rw [tearRepairs, if_pos hs]
  rfl

/-- A clearing cut after `cut.zeroed` units has zeroed the upper ones of its segment. -/
theorem read_cleared {m : Memory} (h : m.wf = true) (g : Seg) {n : Nat} (hn : n ≤ 256) (a : Nat) :
    (m.cleared g n).read a =
      if g.val * 2048 + (256 - n) * 8 ≤ a ∧ a < g.val * 2048 + 2048 then 0 else m.read a := by
  have hend : unitAddr g (256 - n) + (256 - (256 - n)) * 8 = g.val * 2048 + 2048 := by
    unfold unitAddr
    omega
  rw [Memory.cleared, Memory.zeroUnits, Memory.read_zero h, hend]
  rfl

theorem State.copy_eq (i : CopyId) : s.copy i = if i = .a then s.copyA else s.copyB := by cases i <;> rfl

theorem exec_resetAssert_mem (h : s.pc.supply.powered = true) : ∃ t, exec (.resetAssert cut) s = .next t ∧
    t.mem = (tear cut (s.onPc (fun p => { p with resetLow := true }))).mem := by
  rw [exec_resetAssert_of_powered cut h, stopMain_of_powered cut (by exact h)]
  exact ⟨_, rfl, rfl⟩

end

/-! ## The statement on abrupt stops -/

/-- A stop before the first byte of a record write undoes its beginning; one after its last byte makes its commit. -/
theorem tear_mem_of_begun {s : State} (hwf : s.mem.wf = true) (hc : s.js.clearing = none) (hs : s.pc.scanning = false)
    {n : Nat} (hn : s.au.nextSeq = .value n) (q : InProgress) (cut : Cut) :
    let t := beginWrite [] [] q s
    let r := q.begun [] [] n s
    (cut.record = 0 → (tear cut t).mem = s.mem) ∧
    (r.writes.length ≤ cut.record →
      (tear cut t).mem = t.mem.writeCells (commitCells (unitAddr r.seg r.unit) r.data r.seq)) := by
  intro t r
  have ht := beginWrite_of_value hn [] [] q
  have hmem : t.mem = s.mem.writeCells (beginCells n q s) := congrArg (·.mem) ht
  have hundo : r.undo = s.mem.before (beginCells n q s) := List.nil_append _
  have hwrites : r.writes = beginCells n q s ++ commitCells (unitAddr r.seg r.unit) r.data r.seq :=
    congrArg (· ++ _) (List.nil_append _)
  have htear : (tear cut t).mem = s.mem.writeCells (r.writes.take cut.record) := by
    rw [tear_mem_of_writing cut (r := r) (congrArg (·.au.record) ht) rfl (by simpa [t] using hc) (by simpa [t] using hs),
      hmem, hundo, Memory.writeCells_before hwf]
  refine ⟨fun h0 => ?_, fun hall => ?_⟩
  · rw [htear, h0]
    rfl
  · rw [htear, List.take_of_length_le hall, hwrites, Memory.writeCells_append, hmem]

/-- Settles O56: each clause has one write in flight, and the stop leaves of memory what that write leaves; for the last, the
record write is the one that the arbiter's choice has begun. -/
theorem abruptStopsCutWrites : Obligations.AbruptStopsCutWrites := by
  unfold Obligations.AbruptStopsCutWrites
  refine ⟨fun s cut hpow => ?_, fun s t r cut hwf hnone hpow hfill hclear hscan hexec hr hphase => ?_⟩
  · obtain ⟨t, hexec, hmem⟩ := exec_resetAssert_mem cut hpow
    refine ⟨t, hexec, fun r hr hp hc hs => ?_, fun g hg hr hs hopen hwf hz a => ?_, fun hg hr hs hopen hz => ?_,
      fun hs hr hc hw => ?_⟩
    · rw [hmem, tear_mem_of_writing cut (by exact hr) hp (by exact hc) (by exact hs)]
      rfl
    · have hno : firstOpenNext s = true → cut.zeroed ≠ 256 := fun hf => by
        obtain ⟨hlast, hnext⟩ := firstOpenNext_iff.1 hf
        obtain rfl : g = 63 := Option.some.inj (hg.symm.trans hlast)
        obtain hne | hlt | ⟨hcold, hslot⟩ := hopen
        · exact absurd rfl hne
        · exact hlt.ne
        · obtain h | ⟨e, n, h⟩ := hnext
          · exact absurd h hcold
          · exact absurd h (hslot e n)
      rw [hmem, tear_mem_of_clearing cut (by exact hr) (by exact hs), tearClearing_of_not_open (by exact hno),
        abandonClearing_of_some _ (by exact hg)]
      exact read_cleared hwf g hz a
    · have hf : firstOpenNext s = true := firstOpenNext_iff.2 ⟨hg, hopen⟩
      rw [hmem, tear_mem_of_clearing cut (by exact hr) (by exact hs), tearClearing_of_open (by exact hf) hz,
        abandonClearing_of_some _ (by exact hg)]
      change (s.mem.cleared 63 256).writeCells ((headerCells 0 .filling 0).take cut.record) = _
      rw [Memory.cleared_all, headerCells_eq]
      simp
    · rw [hmem, tear_mem_of_scanning cut (by exact hr) (by exact hc) (by exact hw) (by exact hs), ← State.copy_eq]
      rfl
  · obtain rfl : arbiterChoice s = t := Host.Outcome.next.inj hexec
    obtain ⟨q, u, n, hmem, hjs, hpc, hn, hbegun⟩ := arbiterChoice_of_writing hnone hr hphase
    let low (p : Pc) : Pc := { p with resetLow := true }
    have hrec : r = q.begun [] [] n u := by
      rw [hbegun, beginWrite_of_value hn] at hr
      exact (Option.some.inj hr).symm
    have hpow' : (arbiterChoice s).pc.supply.powered = true := by simpa [hbegun, hpc] using hpow
    have hlow : (arbiterChoice s).onPc low = beginWrite [] [] q (u.onPc low) := by
      rw [hbegun, beginWrite_of_value hn, beginWrite_of_value (s := u.onPc low) hn]
      rfl
    obtain ⟨v, hv, hvmem⟩ := exec_resetAssert_mem cut hpow'
    obtain ⟨hundone, hmade⟩ := tear_mem_of_begun (s := u.onPc low) (by simpa [hmem] using hwf) (by simpa [hjs] using hclear)
      (by simpa [low, hpc] using hscan) hn q cut
    rw [← hlow, State.onPc_mem] at hmade
    rw [← hlow] at hundone
    subst hrec
    exact ⟨v, hv, fun h0 => hvmem.trans ((hundone h0).trans hmem), fun hall => hvmem.trans (hmade hall)⟩

end Sys2Proof.Machine
end

section
/-! SUPPORT. The ledger: what the bounds of the host queues and of the lanes are counted from (R45, R162 to R164, R167), and
what it is for an operation to settle commands on it. -/

namespace Sys2Proof.Machine

/-! ## The ledger -/

/-- The commands that are parked in cursors. -/
def parkedCount (v : Vector Cursor 4) : Nat := v.countP (fun x => x.parkedTag.isSome)

/-- A record came from a host command. -/
def Origin.isHost : Origin → Bool
  | .host _ => true
  | .system _ | .capture _ _ => false

/-- The record in progress came from a host command. -/
def Au.hostRecord (a : Au) : Bool := a.record.any (·.origin.isHost)

/-- What the count of commands is made of: the supply state, the HP's counts, the lanes of the AU, the slots that are taken
and the parked fetches. -/
@[ext] structure Ledger where
  supply : Supply
  offline : Bool
  outstanding : Nat
  tags : List Byte
  commands : Nat
  responses : Nat
  system : Nat
  lane : List PlaceState
  hostRecord : Bool
  js : Bool
  cu : Bool
  tb : Bool
  wu : Bool
  cp : Bool
  parked : Nat

/-- The ledger of a state. -/
def ledger (s : State) : Ledger :=
  { supply := s.pc.supply, offline := s.hp.offline, outstanding := s.hp.outstanding, tags := s.hp.tags,
    commands := s.hp.commands.length, responses := s.hp.responses.length, system := s.au.systemLane.length,
    lane := s.au.hostLane.map (·.state), hostRecord := s.au.hostRecord, js := s.js.slot.isSome, cu := s.cu.slot.isSome,
    tb := s.tb.slot.isSome, wu := s.wu.slot.isSome, cp := s.cp.slot.isSome, parked := parkedCount s.cu.cursors }

namespace Ledger

/-- The commands that the units hold. -/
def held (l : Ledger) : Nat :=
  l.lane.length + l.js.toNat + l.cu.toNat + l.tb.toNat + l.wu.toNat + l.cp.toNat + l.parked

/-- The commands that wait, those that the units hold, and the responses. -/
def live (l : Ledger) : Nat := l.commands + l.responses + l.held

/-- A host record in progress has its lane place. -/
def placed (l : Ledger) : Prop := l.hostRecord = true → .inProgress ∈ l.lane

/-- The HP's bounds of R162 and R163. -/
def hostBounded (l : Ledger) : Prop := l.outstanding ≤ 8 ∧ l.tags.Nodup ∧ (0xFF : Byte) ∉ l.tags

/-- The lanes' bounds of R45. -/
def laneBounded (l : Ledger) : Prop := l.system ≤ 4 ∧ l.lane.length ≤ 2

/-- The HP is online exactly in RUN, and the count of commands holds. -/
structure sound (l : Ledger) : Prop where
  online : l.offline = false ↔ l.supply = .run
  counted : l.supply = .run → l.live ≤ l.outstanding
  emptied : l.supply ≠ .run → l.commands = 0 ∧ l.responses = 0
  idle : l.supply ≠ .run → l.supply ≠ .holdup → l.held = 0
  placed : l.placed

/-- The bounds that hold of `l` hold of `m`. -/
structure KeepsBounds (l m : Ledger) : Prop where
  host : l.hostBounded → m.hostBounded
  lanes : l.laneBounded → m.laneBounded

/-- The bounds and the count that hold of `l` hold of `m`. -/
structure Keeps (l m : Ledger) : Prop extends KeepsBounds l m where
  sound : l.sound → m.sound

theorem KeepsBounds.refl (l : Ledger) : l.KeepsBounds l := ⟨id, id⟩

theorem Keeps.refl (l : Ledger) : l.Keeps l := ⟨.refl l, id⟩

theorem Keeps.trans {l m n : Ledger} (h : l.Keeps m) (h' : m.Keeps n) : l.Keeps n :=
  ⟨⟨h'.host ∘ h.host, h'.lanes ∘ h.lanes⟩, h'.sound ∘ h.sound⟩

/-- `m` follows from `l` when commands only move from the queue to the units and on to their answers, `k` of them being on
their way to an answer. -/
structure Settles (k : Nat) (l m : Ledger) : Prop where
  supply : m.supply = l.supply
  offline : m.offline = l.offline
  outstanding : m.outstanding = l.outstanding
  tags : m.tags = l.tags
  queued : l.offline = true → m.commands + m.responses ≤ l.commands + l.responses
  live : m.live + k ≤ l.live
  system : l.system ≤ 4 → m.system ≤ 4
  lane : l.lane.length ≤ 2 → m.lane.length ≤ 2
  placed : l.placed → m.placed

theorem Settles.refl (l : Ledger) : l.Settles 0 l := by
  constructor <;> simp

theorem Settles.of_eq {l m : Ledger} (h : m = l) : l.Settles 0 m := h ▸ .refl l

theorem Settles.trans {l m n : Ledger} {j k : Nat} (h : l.Settles j m) (h' : m.Settles k n) : l.Settles (j + k) n where
  supply := h'.supply.trans h.supply
  offline := h'.offline.trans h.offline
  outstanding := h'.outstanding.trans h.outstanding
  tags := h'.tags.trans h.tags
  queued ho := (h'.queued (h.offline.trans ho)).trans (h.queued ho)
  live := by have := h.live; have := h'.live; omega
  system := h'.system ∘ h.system
  lane := h'.lane ∘ h.lane
  placed := h'.placed ∘ h.placed

/-- Nothing more is taken off on the way. -/
theorem Settles.andThen {l m n : Ledger} {k : Nat} (h : l.Settles k m) (h' : m.Settles 0 n) : l.Settles k n :=
  h.trans h'

theorem Settles.mono {l m : Ledger} {j k : Nat} (h : l.Settles k m) (hj : j ≤ k) : l.Settles j m :=
  { h with live := by have := h.live; omega }

/-- A response joins the queue, unless the HP is OFFLINE. -/
def post (l : Ledger) : Ledger := if l.offline then l else { l with responses := l.responses + 1 }

/-- A command on its way to an answer is answered. -/
theorem Settles.post {l m : Ledger} {k : Nat} (h : l.Settles (k + 1) m) : l.Settles k m.post := by
  unfold Ledger.post
  split
  case isTrue => exact h.mono (Nat.le_succ k)
  case isFalse ho =>
    refine { h with queued := fun hl => absurd (h.offline.trans hl) ho, live := ?_ }
    have := h.live
    simp only [Ledger.live, held] at this ⊢
    omega

theorem Settles.keeps {l m : Ledger} {k : Nat} (h : l.Settles k m) : l.Keeps m := by
  have hlive := h.live
  refine ⟨⟨fun ⟨h8, hn, hf⟩ => ⟨h.outstanding ▸ h8, h.tags ▸ hn, h.tags ▸ hf⟩, And.imp h.system h.lane⟩, fun hl => ?_⟩
  have hoff : m.supply ≠ .run → l.commands = 0 ∧ l.responses = 0 ∧ m.commands = 0 ∧ m.responses = 0 := fun hr => by
    have hr' : l.supply ≠ .run := h.supply ▸ hr
    have := h.queued (Bool.not_eq_false _ ▸ mt hl.online.1 hr')
    have := hl.emptied hr'
    omega
  refine ⟨?_, fun hr => ?_, fun hr => ?_, fun hr hh => ?_, h.placed hl.placed⟩
  · rw [h.offline, h.supply, hl.online]
  · have := hl.counted (h.supply ▸ hr)
    rw [h.outstanding]
    omega
  · have := hoff hr
    omega
  · have := hoff hr
    have := hl.idle (h.supply ▸ hr) (h.supply ▸ hh)
    simp only [Ledger.live] at hlive
    omega

end Ledger

/-! ## The ledger speaks of the statement's laws -/

theorem heldCommands_eq (s : State) : heldCommands s = (ledger s).held := by
  simp [heldCommands, ledger, Ledger.held, parkedCount, ← Vector.countP_toList, List.countP_eq_length_filter]

theorem hostBounded_iff (s : State) : (ledger s).hostBounded ↔ hostLaw s.hp := Iff.rfl

theorem laneBounded_iff (s : State) : (ledger s).laneBounded ↔ laneLaw s.au := by
  simp [Ledger.laneBounded, ledger, laneLaw]

theorem Origin.isHost_iff (o : Origin) : o.isHost = true ↔ ∃ tag, o = .host tag := by
  cases o <;> simp [Origin.isHost]

theorem Au.hostRecord_iff (a : Au) : a.hostRecord = true ↔ ∃ r tag, a.record = some r ∧ r.origin = .host tag := by
  simp [Au.hostRecord, Option.any_eq_true, Origin.isHost_iff]

theorem placed_iff (s : State) : (ledger s).placed ↔
    ∀ r tag, s.au.record = some r → r.origin = .host tag → ∃ p ∈ s.au.hostLane, p.state = .inProgress := by
  simp only [Ledger.placed, ledger, Au.hostRecord_iff, List.mem_map]
  exact ⟨fun h r tag hr ho => h ⟨r, tag, hr, ho⟩, fun h ⟨r, tag, hr, ho⟩ => h r tag hr ho⟩

theorem sound_iff (s : State) :
    (ledger s).sound ↔ (s.hp.offline = false ↔ s.pc.supply = .run) ∧ outstandingLaw s := by
  simp only [outstandingLaw, heldCommands_eq, ← placed_iff, ← List.length_eq_zero_iff]
  exact ⟨fun ⟨a, b, c, d, e⟩ => ⟨a, b, c, d, e⟩, fun ⟨a, b, c, d, e⟩ => ⟨a, b, c, d, e⟩⟩

end Sys2Proof.Machine
end

section
/-! SUPPORT. What the shared operations do to the ledger: most leave it as it is, and an answer frees what held its command. -/

namespace Sys2Proof.Machine

section

variable (s : State)

/-- Where the PC, the HP and the AU stay as they are, what the units hold decides. -/
theorem settles_of_held {s t : State} {k : Nat} (hpc : t.pc = s.pc) (hhp : t.hp = s.hp) (hau : t.au = s.au)
    (h : (ledger t).held + k ≤ (ledger s).held) : (ledger s).Settles k (ledger t) where
  supply := congrArg Pc.supply hpc
  offline := congrArg Hp.offline hhp
  outstanding := congrArg Hp.outstanding hhp
  tags := congrArg Hp.tags hhp
  queued _ := by simp [ledger, hhp]
  live := by
    have hc : (ledger t).commands = (ledger s).commands := by simp [ledger, hhp]
    have hr : (ledger t).responses = (ledger s).responses := by simp [ledger, hhp]
    simp only [Ledger.live, hc, hr]
    omega
  system := by simp [ledger, hau]
  lane := by simp [ledger, hau]
  placed := by simp [ledger, hau, Ledger.placed]

/-! ## Events, responses, system record requests -/

@[simp] theorem ledger_latch (e : Event) : ledger (latch e s) = ledger s := rfl

@[simp] theorem ledger_latchIf (b : Bool) (e : Event) : ledger (latchIf b e s) = ledger s := by
  unfold latchIf; split <;> rfl

@[simp] theorem ledger_post (r : Response) : ledger (post r s) = (ledger s).post := by
  cases h : s.hp.offline <;> simp [ledger, post, Hp.post, Ledger.post, h]

@[simp] theorem ledger_answer (e : Entry) (r : Result) (fields : List Byte) :
    ledger (answer e r fields s) = (ledger s).post := ledger_post s _

theorem ledger_loseSystem : ledger (loseSystem s) = ledger s := rfl

theorem requestSystem_settles (q : SysRequest) : (ledger s).Settles 0 (ledger (requestSystem q s)) := by
  unfold requestSystem
  (repeat' split)
  · exact .refl _
  case isTrue hl => exact { Ledger.Settles.refl (ledger s) with system := fun _ => by simpa [ledger] using hl }
  · exact .of_eq (ledger_loseSystem s)

theorem requestSystems_settle (l : List SysRequest) :
    (ledger s).Settles 0 (ledger (l.foldl (fun s q => requestSystem q s) s)) := by
  induction l generalizing s with
  | nil => exact .refl _
  | cons q l ih => exact (requestSystem_settles s q).andThen (ih _)

/-! ## Journal Store -/

@[simp] theorem requestCopy_slot : (requestCopy s).js.slot = s.js.slot := by rw [requestCopy_js]

@[simp] theorem ledger_requestCopy : ledger (requestCopy s) = ledger s := by simp [ledger]

theorem reclaim_slots : (reclaim s).js.slot = s.js.slot ∧ (reclaim s).cu.slot.isSome = s.cu.slot.isSome ∧
    (reclaim s).cu.cursors = s.cu.cursors := by
  rw [reclaim_js, reclaim_cu]
  simp [beforeCopy]

/-- Preparation frees no slot and takes none, and moves no cursor. -/
@[simp] theorem prepare_slots : (prepare s).js.slot = s.js.slot ∧ (prepare s).cu.slot.isSome = s.cu.slot.isSome ∧
    (prepare s).cu.cursors = s.cu.cursors := by
  unfold prepare
  (repeat' split) <;> simp [setBlocked, startClearing, Js.onEntry, reclaim_slots]

@[simp] theorem ledger_prepare : ledger (prepare s) = ledger s := by simp [ledger]

/-- Nor does the JS when it takes a hold floor. -/
@[simp] theorem takeFloor_slots (f : Option Nat) : (takeFloor f s).js.slot = s.js.slot ∧
    (takeFloor f s).cu.slot.isSome = s.cu.slot.isSome ∧ (takeFloor f s).cu.cursors = s.cu.cursors := by
  unfold takeFloor
  dsimp only
  split <;> simp

@[simp] theorem ledger_takeFloor (f : Option Nat) : ledger (takeFloor f s) = ledger s := by simp [ledger]

@[simp] theorem reportFloor_slots (old : Option Nat) : (reportFloor old s).js.slot = s.js.slot ∧
    (reportFloor old s).cu.slot.isSome = s.cu.slot.isSome ∧ (reportFloor old s).cu.cursors = s.cu.cursors := by
  unfold reportFloor
  dsimp only
  (repeat' split) <;> simp

@[simp] theorem ledger_withFloor (f : State → State) : ledger (withFloor f s) = ledger (f s) := by
  simp [ledger, withFloor]

theorem freeJs_settles (h : s.js.slot.isSome = true) : (ledger s).Settles 1 (ledger (setJsSlot none s)) :=
  settles_of_held rfl rfl rfl (by simp [ledger, Ledger.held, setJsSlot, h])

theorem answerJs_settles (e : Entry) (r : Result) (fields : List Byte) (h : s.js.slot.isSome = true) :
    (ledger s).Settles 0 (ledger (answerJs e r fields s)) := by
  rw [answerJs, ledger_answer]
  exact (freeJs_settles s h).post

theorem ledger_setJsSlot (x : JsSlot) (h : s.js.slot.isSome = true) : ledger (setJsSlot (some x) s) = ledger s := by
  simp [ledger, setJsSlot, h]

/-! ## Time Base, Watch Unit, Capture Port -/

theorem freeTb_settles (h : s.tb.slot.isSome = true) :
    (ledger s).Settles 1 (ledger (s.onTb (fun x => { x with slot := none }))) :=
  settles_of_held rfl rfl rfl (by simp [ledger, Ledger.held, h])

theorem answerTb_settles (e : Entry) (r : Result) (fields : List Byte) (h : s.tb.slot.isSome = true) :
    (ledger s).Settles 0 (ledger (answerTb e r fields s)) := by
  rw [answerTb, ledger_answer]
  exact (freeTb_settles s h).post

theorem freeWu_settles (h : s.wu.slot.isSome = true) :
    (ledger s).Settles 1 (ledger (s.onWu (fun x => { x with slot := none }))) :=
  settles_of_held rfl rfl rfl (by simp [ledger, Ledger.held, h])

theorem answerWu_settles (e : Entry) (r : Result) (fields : List Byte) (h : s.wu.slot.isSome = true) :
    (ledger s).Settles 0 (ledger (answerWu e r fields s)) := by
  rw [answerWu, ledger_answer]
  exact (freeWu_settles s h).post

theorem freeCp_settles (h : s.cp.slot.isSome = true) :
    (ledger s).Settles 1 (ledger (s.onCp (fun x => { x with slot := none }))) :=
  settles_of_held rfl rfl rfl (by simp [ledger, Ledger.held, h])

theorem answerCp_settles (e : Entry) (r : Result) (fields : List Byte) (h : s.cp.slot.isSome = true) :
    (ledger s).Settles 0 (ledger (answerCp e r fields s)) := by
  rw [answerCp, ledger_answer]
  exact (freeCp_settles s h).post

/-! ## Cursor Unit -/

/-- A parked fetch on cursor `c` counts; what takes its place counts in its stead. -/
theorem parkedCount_onCursor (c : Fin 4) (f : Cursor → Cursor) (u : Cu) :
    parkedCount (u.onCursor c f).cursors + (u.cursors[c]).parkedTag.isSome.toNat =
      parkedCount u.cursors + (f u.cursors[c]).parkedTag.isSome.toNat := by
  have hle := Vector.boole_getElem_le_countP (p := fun x : Cursor => x.parkedTag.isSome) (xs := u.cursors) c.isLt
  unfold parkedCount Cu.onCursor vmod
  rw [Vector.countP_set]
  simp only [Fin.getElem_fin, Bool.toNat, Bool.cond_eq_ite] at hle ⊢
  omega

@[simp] theorem ledger_onCursor_cu (c : Fin 4) (f : Cursor → Cursor) :
    (ledger (onCursor c f s)).cu = (ledger s).cu := rfl

/-- An update of a cursor that parks nothing. -/
theorem onCursor_settles (c : Fin 4) (f : Cursor → Cursor)
    (h : (f s.cu.cursors[c]).parkedTag.isSome = true → (s.cu.cursors[c]).parkedTag.isSome = true) :
    (ledger s).Settles 0 (ledger (onCursor c f s)) := by
  have hcount := parkedCount_onCursor c f s.cu
  have hle := Bool.toNat_le_toNat h
  refine settles_of_held rfl rfl rfl ?_
  simp only [ledger, Ledger.held, onCursor, State.onCu, Cu.onCursor] at hcount ⊢
  omega

/-- An update of a cursor that ends its park. -/
theorem onCursor_unparks (c : Fin 4) (f : Cursor → Cursor) (h : (s.cu.cursors[c]).parkedTag.isSome = true)
    (hf : (f s.cu.cursors[c]).parkedTag = none) : (ledger s).Settles 1 (ledger (onCursor c f s)) := by
  have hcount := parkedCount_onCursor c f s.cu
  rw [h, hf] at hcount
  refine settles_of_held rfl rfl rfl ?_
  simp only [ledger, Ledger.held, onCursor, State.onCu, Cu.onCursor, Bool.toNat_true, Option.isSome_none,
    Bool.toNat_false] at hcount ⊢
  omega

theorem ledger_onCursor (c : Fin 4) (f : Cursor → Cursor) (h : ∀ x : Cursor, (f x).parkedTag = x.parkedTag) :
    ledger (onCursor c f s) = ledger s := by
  have hcount := parkedCount_onCursor c f s.cu
  rw [h] at hcount
  have hp : parkedCount (onCursor c f s).cu.cursors = parkedCount s.cu.cursors := Nat.add_right_cancel hcount
  exact Ledger.ext rfl rfl rfl rfl rfl rfl rfl rfl rfl rfl rfl rfl rfl rfl hp

/-- The cursors all updated, none of them parked or freed by it. -/
theorem parkedCount_map (v : Vector Cursor 4) (f : Cursor → Cursor) (h : ∀ x : Cursor, (f x).parkedTag = x.parkedTag) :
    parkedCount (v.map f) = parkedCount v := by
  simp [parkedCount, Function.comp_def, h]

@[simp] theorem ledger_reportLoss (c : Fin 4) (n : Nat) : ledger (reportLoss c n s) = ledger s := by
  unfold reportLoss
  split
  · rfl
  · exact ledger_onCursor s c _ fun _ => rfl

@[simp] theorem ledger_lossCheck (c : Fin 4) : ledger (lossCheck c s) = ledger s := by
  unfold lossCheck
  rw [ledger_reportLoss]
  exact ledger_onCursor s c _ fun x => by split <;> rfl

@[simp] theorem ledger_setWindow (c : Fin 4) (image : List Byte) : ledger (setWindow c image s) = ledger s := by
  unfold setWindow
  split <;> exact ledger_onCursor s c _ fun _ => rfl

@[simp] theorem ledger_countDelivered (c : Fin 4) : ledger (countDelivered c s) = ledger s :=
  ledger_onCursor s c _ fun _ => rfl

@[simp] theorem ledger_markSeen (c : Fin 4) (stop : ReclaimNotice → Bool) : ledger (markSeen c stop s) = ledger s := rfl

theorem ledger_setScan (e : Entry) (sc : Scan) (h : (ledger s).cu = true) : ledger (setScan e sc s) = ledger s :=
  Ledger.ext rfl rfl rfl rfl rfl rfl rfl rfl rfl rfl h.symm rfl rfl rfl rfl

theorem freeCu_settles (h : (ledger s).cu = true) :
    (ledger s).Settles 1 (ledger (s.onCu (fun u => { u with slot := none }))) :=
  settles_of_held rfl rfl rfl (by simp_all [ledger, Ledger.held])

theorem answerCu_settles (e : Entry) (r : Result) (lost : Bool) (fields : List Byte) (h : (ledger s).cu = true) :
    (ledger s).Settles 0 (ledger (answerCu e r lost fields s)) := by
  rw [answerCu, ledger_post]
  exact (freeCu_settles s h).post

theorem rejectCu_settles (e : Entry) (r : Result) (h : (ledger s).cu = true) :
    (ledger s).Settles 0 (ledger (rejectCu e r s)) :=
  answerCu_settles s e r false [] h

end

end Sys2Proof.Machine
end

section
/-! SUPPORT. The CU's commands and happenings settle what they answer or park (R113 to R117, R127). -/

namespace Sys2Proof.Machine

theorem Cursor.parkedTag_unparked (x : Cursor) : x.unparked.parkedTag = none := by
  unfold Cursor.unparked
  split
  · rfl
  · simp [Cursor.parkedTag, *]

theorem Cursor.parkedTag_unparked_at (x : Cursor) (p : Nat) :
    ({ x.unparked with position := p } : Cursor).parkedTag = none := x.parkedTag_unparked

section

variable {s : State} (h : (ledger s).cu = true)

include h

/-! ## The ends of a scan -/

theorem endScan_settles (e : Entry) (sc : Scan) (pos : Nat) (r : Result) (limited : Bool) (fields : Nat → List Byte) :
    (ledger s).Settles 0 (ledger (endScan e sc pos r limited fields s)) := by
  have hready := onCursor_settles (reportLoss sc.cursor sc.owed s) sc.cursor
    (fun x => { x with state := .ready, position := pos }) (by simp [Cursor.parkedTag])
  rw [ledger_reportLoss] at hready
  unfold endScan
  rw [ledger_withFloor]
  dsimp only
  rw [ledger_post]
  exact (hready.trans (freeCu_settles _ (by simpa using h))).post

/-- A park takes the fetch from the slot to the cursor. -/
theorem park_settles (e : Entry) (sc : Scan) (tail : Nat) : (ledger s).Settles 0 (ledger (park e sc tail s)) := by
  unfold park
  rw [ledger_withFloor]
  refine settles_of_held rfl rfl rfl ?_
  have hcount := parkedCount_onCursor sc.cursor (fun x => 
      { x with state := .parked, position := tail, fetchTag := some e.tag, fetchLost := sc.skipped != 0,
               beatsLeft := if x.timeout = 0 then none else some x.timeout }) s.cu
  have hcu : s.cu.slot.isSome = true := h
  simp only [Cursor.parkedTag, if_true, Option.isSome_some, Bool.toNat_true] at hcount
  simp only [ledger, Ledger.held, onCursor, State.onCu, hcu, Option.isSome_none, Bool.toNat_true, Bool.toNat_false]
  omega

theorem endCount_settles (e : Entry) (sc : Scan) (limited : Bool) :
    (ledger s).Settles 0 (ledger (endCount e sc limited s)) := endScan_settles h ..

theorem endSeek_settles (e : Entry) (sc : Scan) (pos : Nat) : (ledger s).Settles 0 (ledger (endSeek e sc pos s)) :=
  endScan_settles h ..

theorem atTail_settles (e : Entry) (sc : Scan) : (ledger s).Settles 0 (ledger (atTail e sc s)) := by
  unfold atTail
  dsimp only
  split
  · split
    · exact park_settles h ..
    · exact endScan_settles h ..
  · exact endCount_settles h ..
  · exact endSeek_settles h ..

theorem atHead_settles (e : Entry) (sc : Scan) (before : Nat) : (ledger s).Settles 0 (ledger (atHead e sc before s)) := by
  unfold atHead
  split
  · exact endScan_settles h ..
  · exact endCount_settles h ..
  · exact endSeek_settles h ..

theorem setScan_settles (e : Entry) (sc : Scan) : (ledger s).Settles 0 (ledger (setScan e sc s)) :=
  .of_eq (ledger_setScan s e sc h)

/-! ## The steps of a scan -/

theorem examine_settles (e : Entry) (sc : Scan) (u : Nat) (next : Onward) :
    (ledger s).Settles 0 (ledger (examine e sc u next s)) := by
  unfold examine
  dsimp only
  split
  · split
    · have hfound := endScan_settles (s := countDelivered sc.cursor (setWindow sc.cursor (windowImage s.mem sc.seg u) s))
        (by simpa using h) e sc next.pos .found false
      simp only [ledger_countDelivered, ledger_setWindow] at hfound
      exact hfound _
    · split
      · exact endScan_settles h ..
      · exact setScan_settles h ..
  · split
    · exact endCount_settles h ..
    · exact setScan_settles h ..
  · split_ifs
    · exact endSeek_settles h ..
    · exact setScan_settles h ..
    · exact endSeek_settles h ..
    · exact setScan_settles h ..

theorem readForward_settles (e : Entry) (sc : Scan) (u : Nat) :
    (ledger s).Settles 0 (ledger (readForward e sc u s)) := by
  unfold readForward
  dsimp only
  split
  · split
    · exact examine_settles h ..
    · exact setScan_settles h ..
  all_goals exact setScan_settles h ..

theorem stepForward_settles (e : Entry) (sc : Scan) : (ledger s).Settles 0 (ledger (stepForward e sc s)) := by
  unfold stepForward
  (repeat' split)
  · exact .refl _
  · exact setScan_settles h ..
  · exact setScan_settles h ..
  · exact .refl _
  · exact readForward_settles h ..

theorem leaveBackward_settles (e : Entry) (sc : Scan) : (ledger s).Settles 0 (ledger (leaveBackward e sc s)) := by
  unfold leaveBackward
  split
  · exact atHead_settles h ..
  · exact setScan_settles h ..

theorem stepBackward_settles (e : Entry) (sc : Scan) : (ledger s).Settles 0 (ledger (stepBackward e sc s)) := by
  unfold stepBackward
  dsimp only
  (repeat' split)
  · exact leaveBackward_settles h ..
  · exact setScan_settles h ..
  · exact leaveBackward_settles h ..
  · exact examine_settles h ..
  · exact setScan_settles h ..

theorem tailTest_settles (e : Entry) (sc : Scan) : (ledger s).Settles 0 (ledger (tailTest e sc s)) := by
  unfold tailTest
  (repeat' split)
  · exact .refl _
  · exact atTail_settles h ..
  · exact setScan_settles h ..
  · exact atTail_settles h ..
  · exact readForward_settles h ..

theorem overtakeForward_settles (e : Entry) (sc : Scan) (g : Seg) (n : Nat) :
    (ledger s).Settles 0 (ledger (overtakeForward e sc g n s)) := by
  unfold overtakeForward
  dsimp only
  exact .of_eq ((ledger_setScan _ _ _ (by simpa using h)).trans (ledger_reportLoss ..))

theorem afterReclaims_settles (e : Entry) (sc : Scan) (l : Bool × Nat) (before : Nat) :
    (ledger s).Settles 0 (ledger (afterReclaims e sc l before s)) := by
  unfold afterReclaims
  dsimp only
  split
  · exact atHead_settles h ..
  · exact setScan_settles h ..

theorem findsGone_settles (e : Entry) (sc : Scan) : (ledger s).Settles 0 (ledger (findsGone e sc s)) := by
  unfold findsGone
  dsimp only
  (repeat' split)
  · exact atHead_settles (s := markSeen ..) h ..
  · exact afterReclaims_settles (s := markSeen ..) h ..
  · exact afterReclaims_settles (s := markSeen ..) h ..
  · exact overtakeForward_settles (s := markSeen ..) h ..

/-! ## The commands (R101, R106 to R112, R116, R117, R126) -/

theorem openCursor_settles (e : Entry) : (ledger s).Settles 0 (ledger (openCursor e s)) := by
  unfold openCursor
  (repeat' split)
  · exact rejectCu_settles s e _ h
  · exact rejectCu_settles s e _ h
  · refine (?_ : (ledger s).Settles 0 _).andThen (answerCu_settles _ e _ _ _ (by simpa using h))
    rw [ledger_reportLoss, ledger_withFloor, ledger_setWindow]
    exact onCursor_settles s _ _ (by simp [Cursor.opened, Cursor.parkedTag])

theorem seek_settles (c : Fin 4) (e : Entry) : (ledger s).Settles 0 (ledger (seek c e s)) := by
  unfold seek
  split
  · exact rejectCu_settles s e _ h
  · refine (?_ : (ledger s).Settles 0 _).andThen (answerCu_settles _ e _ _ _ (by simpa using h))
    rw [ledger_reportLoss, ledger_withFloor, ledger_onCursor _ _ _ (by intro x; rfl), ledger_lossCheck]
    exact .refl _

/-- A cursor that begins a scan is parked no more. -/
theorem startScan_settles (e : Entry) (sc : Scan) : (ledger s).Settles 0 (ledger (startScan e sc s)) :=
  (onCursor_settles s sc.cursor (fun x => { x with state := .scanning }) (by simp [Cursor.parkedTag])).andThen
    (setScan_settles (by simpa using h) ..)

theorem seekTime_settles (c : Fin 4) (e : Entry) : (ledger s).Settles 0 (ledger (seekTime c e s)) := by
  unfold seekTime
  split
  · exact rejectCu_settles s e _ h
  · have hstart := startScan_settles (s := lossCheck c s) (by simpa using h)
    rw [ledger_lossCheck] at hstart
    exact hstart ..

theorem beginScan_settles (kind : ScanKind) (c : Fin 4) (e : Entry) :
    (ledger s).Settles 0 (ledger (beginScan kind c e s)) := by
  unfold beginScan
  split
  · exact rejectCu_settles s e _ h
  · have hstart := startScan_settles (s := lossCheck c s) (by simpa using h)
    rw [ledger_lossCheck] at hstart
    dsimp only
    (repeat' split)
    · exact (hstart ..).andThen (atHead_settles rfl ..)
    · exact hstart ..
    · exact (hstart ..).andThen (atTail_settles rfl ..)
    · exact hstart ..

omit h in
/-- The answer of a parked fetch, with what ends its park. -/
theorem answerParked_settles (r : Result) (c : Fin 4) (f : Cursor → Cursor) (hf : ∀ x, (f x).parkedTag = none) :
    (ledger s).Settles 0 (ledger (onCursor c f (answerParked r c s))) := by
  unfold answerParked
  split
  case h_1 tag htag =>
    change (ledger s).Settles 0 (ledger (post (Response.bare tag r _) (onCursor c f s)))
    rw [ledger_post]
    exact (onCursor_unparks s c f (Option.isSome_of_eq_some htag) (hf _)).post
  case h_2 => exact onCursor_settles s c f (by simp [hf])

omit h in
@[simp] theorem ledger_answerParked_cu (r : Result) (c : Fin 4) :
    (ledger (answerParked r c s)).cu = (ledger s).cu := by simp [ledger]

theorem cancel_settles (c : Fin 4) (e : Entry) : (ledger s).Settles 0 (ledger (cancel c e s)) := by
  unfold cancel
  split
  · exact rejectCu_settles s e _ h
  · exact (answerParked_settles .cancelled c _ Cursor.parkedTag_unparked).andThen
      (answerCu_settles _ e _ _ _ (by simpa using h))

theorem close_settles (c : Fin 4) (e : Entry) : (ledger s).Settles 0 (ledger (close c e s)) := by
  unfold close
  split
  · exact rejectCu_settles s e _ h
  · refine (?_ : (ledger s).Settles 0 _).andThen (answerCu_settles _ e _ _ _ (by simpa using h))
    rw [ledger_withFloor]
    exact answerParked_settles .closed c _ fun _ => rfl

theorem cursorStatus_settles (c : Fin 4) (e : Entry) : (ledger s).Settles 0 (ledger (cursorStatus c e s)) := by
  unfold cursorStatus
  split
  · exact rejectCu_settles s e _ h
  · exact answerCu_settles _ e _ _ _ h

omit h in
theorem withCu_settles (o : Nat) (f : Entry → State → State)
    (hf : (ledger s).cu = true → ∀ e, (ledger s).Settles 0 (ledger (f e s))) :
    (ledger s).Settles 0 (ledger (withCu o f s)) := by
  unfold withCu
  (repeat' split)
  case h_1 e hslot hop => exact hf (by simp [ledger, hslot]) e
  all_goals exact .refl _

theorem withCursor_settles (moves : Bool) (f : Fin 4 → Entry → State → State) (e : Entry)
    (hf : ∀ c, (ledger s).Settles 0 (ledger (f c e s))) : (ledger s).Settles 0 (ledger (withCursor moves f e s)) := by
  unfold withCursor
  split
  case h_1 => exact rejectCu_settles s e _ h
  case h_2 c _ =>
    (repeat' split)
    · exact rejectCu_settles s e _ h
    · exact rejectCu_settles s e _ h
    · exact hf c

omit h in
theorem withScan_settles (f : Entry → Scan → State → State)
    (hf : (ledger s).cu = true → ∀ e sc, (ledger s).Settles 0 (ledger (f e sc s))) :
    (ledger s).Settles 0 (ledger (withScan f s)) := by
  unfold withScan
  split
  case h_1 e sc hslot =>
    have hcu : (ledger s).cu = true := by simp [ledger, hslot]
    split
    · exact findsGone_settles hcu e sc
    · exact hf hcu e sc
  case h_2 => exact .refl _

end

/-! ## FORMAT closes the cursors (R127) -/

theorem Cursor.parkedAnswer_length (r : Result) (x : Cursor) :
    (x.parkedAnswer r).length = x.parkedTag.isSome.toNat := by
  unfold Cursor.parkedAnswer Cursor.parkedTag
  split
  · cases x.fetchTag <;> rfl
  · rfl

theorem parkedCount_eq_countP (v : Vector Cursor 4) :
    parkedCount v = (fins 4).countP (fun c => (v[c]).parkedTag.isSome) := by
  have hv : v.toList = (fins 4).map (fun c => v[c]) := by
    apply List.ext_getElem <;> simp [fins]
  rw [parkedCount, ← Vector.countP_toList, hv, List.countP_map]
  rfl

theorem parkedAnswers_length (r : Result) (v : Vector Cursor 4) (l : List (Fin 4)) :
    (l.flatMap (fun c => (v[c]).parkedAnswer r)).length = l.countP (fun c => (v[c]).parkedTag.isSome) := by
  induction l with
  | nil => rfl
  | cons c l ih => 
    rw [List.flatMap_cons, List.length_append, ih, Cursor.parkedAnswer_length, List.countP_cons, Nat.add_comm, Bool.toNat, Bool.cond_eq_ite]

/-- Responses posted one after another answer as many commands. -/
theorem postAll_settles {l : Ledger} {k : Nat} (rs : List Response) (t : State)
    (h : l.Settles (k + rs.length) (ledger t)) : l.Settles k (ledger (t.onHp (Hp.postAll rs))) := by
  induction rs generalizing t with
  | nil => exact h
  | cons r rs ih =>
    refine ih (post r t) ?_
    rw [ledger_post]
    exact h.post

section

variable (s : State)

theorem closeScanning_settles : (ledger s).Settles 0 (ledger (closeScanning s)) := by
  unfold closeScanning
  split
  case h_1 e sc hslot =>
    have hcu : (ledger s).cu = true := by simp [ledger, hslot]
    have hlost : ledger (onCursor sc.cursor (fun c => { c with lost := sat32 (c.lost + sc.owed) }) s) = ledger s :=
      ledger_onCursor s _ _ fun _ => rfl
    rw [ledger_post, ledger_latchIf]
    exact ((Ledger.Settles.of_eq hlost).trans (freeCu_settles _ (hlost ▸ hcu))).post
  case h_2 => exact .refl _

theorem closeCursors_settles : (ledger s).Settles 0 (ledger (closeCursors s)) := by
  let t := closeScanning s
  let u := t.onCu (fun u => { u with cursors := u.cursors.map Cursor.closedByFormat, noOpen := true })
  have hclosed : (ledger t).Settles (0 + parkedCount t.cu.cursors) (ledger u) := by
    refine settles_of_held rfl rfl rfl ?_
    have hnone : parkedCount u.cu.cursors = 0 := by
      simp [u, parkedCount, Vector.countP_map, Function.comp_def, Cursor.closedByFormat, Cursor.parkedTag]
    simp only [ledger, Ledger.held, hnone]
    simp [u]
  rw [parkedCount_eq_countP, ← parkedAnswers_length .closed] at hclosed
  have hposted := (closeScanning_settles s).andThen (postAll_settles _ u hclosed)
  rw [closeCursors_eq rfl]
  exact hposted

/-! ## Commit notices, reclaim notices, the follow timeout (R114, R115, R121 to R123) -/

theorem onCursor_parkedTag (c d : Fin 4) {f : Cursor → Cursor} (hf : ∀ x, (f x).parkedTag = x.parkedTag) :
    ((onCursor c f s).cu.cursors[d]).parkedTag = (s.cu.cursors[d]).parkedTag :=
  vmod_getElem_of_same hf s.cu.cursors c d

theorem setWindow_parkedTag (c d : Fin 4) (image : List Byte) :
    ((setWindow c image s).cu.cursors[d]).parkedTag = (s.cu.cursors[d]).parkedTag := by
  unfold setWindow
  split <;> exact onCursor_parkedTag s c d fun _ => rfl

theorem countDelivered_parkedTag (c d : Fin 4) :
    ((countDelivered c s).cu.cursors[d]).parkedTag = (s.cu.cursors[d]).parkedTag :=
  onCursor_parkedTag s c d (f := fun x => { x with delivered := sat32 (x.delivered + 1) }) fun _ => rfl

theorem parkedNotice_settles (n : Notice) (c : Fin 4) : (ledger s).Settles 0 (ledger (parkedNotice n c s)) := by
  unfold parkedNotice
  dsimp only
  split
  case isFalse => exact .refl _
  case isTrue hparked =>
    split
    case isFalse => exact .of_eq (ledger_onCursor s c _ (by intro x; rfl))
    case isTrue =>
      let t := countDelivered c (setWindow c (windowImage s.mem n.seg n.unit) s)
      have ht : ledger t = ledger s := by simp [t]
      have htag : (t.cu.cursors[c]).parkedTag = (s.cu.cursors[c]).parkedTag :=
        (countDelivered_parkedTag _ c c).trans (setWindow_parkedTag s c c _)
      split
      case h_1 tag hfetch =>
        rw [ledger_post, ← ht]
        refine (onCursor_unparks t c (fun x => { x.unparked with position := n.seq + 1 }) ?_
          (Cursor.parkedTag_unparked_at _ _)).post
        rw [htag, Cursor.parkedTag, if_pos hparked.1, hfetch]
        rfl
      case h_2 =>
        rw [← ht]
        exact onCursor_settles t c _ (by simp [Cursor.parkedTag_unparked_at])

theorem parkedNotices_settle (n : Notice) (l : List (Fin 4)) :
    (ledger s).Settles 0 (ledger (l.foldl (fun s c => parkedNotice n c s) s)) := by
  induction l generalizing s with
  | nil => exact .refl _
  | cons c l ih => exact (parkedNotice_settles s n c).andThen (ih _)

theorem Cursor.parkedTag_takeReclaim (n : ReclaimNotice) (x : Cursor) : (x.takeReclaim n).parkedTag = x.parkedTag := by
  unfold Cursor.takeReclaim
  (repeat' split) <;> rfl

theorem scanReclaimed_settles (n : ReclaimNotice) (e : Entry) (sc : Scan) (h : (ledger s).cu = true) :
    (ledger s).Settles 0 (ledger (scanReclaimed n e sc s)) := by
  unfold scanReclaimed
  dsimp only
  split
  · split
    · split
      · exact atHead_settles h ..
      · exact .refl _
    all_goals exact afterReclaims_settles h ..
  · split
    · exact overtakeForward_settles h ..
    · exact .refl _

theorem exec_cuCommitNotice_settles {t : State} (h : exec .cuCommitNotice s = .next t) :
    (ledger s).Settles 0 (ledger t) := by
  obtain rfl := Host.Outcome.next.inj h
  split
  case h_1 => exact .refl _
  case h_2 n rest _ =>
    dsimp only
    split
    · exact .refl _
    · rw [ledger_withFloor]
      exact parkedNotices_settle (s.onCu (fun u => { u with notices := rest })) n _

theorem exec_reclaimNotice_settles {t : State} (h : exec .reclaimNotice s = .next t) :
    (ledger s).Settles 0 (ledger t) := by
  obtain rfl := Host.Outcome.next.inj h
  split
  case h_1 => exact .refl _
  case h_2 n rest _ =>
    let u := s.onCu (fun u => { u with reclaims := rest })
    let ready := u.onCu (fun u =>
      { u with cursors := Vector.ofFn (fun c => if n.seenBy.contains c then u.cursors[c] else (u.cursors[c]).takeReclaim n) })
    have hready : ledger ready = ledger s := by
      have hp : parkedCount ready.cu.cursors = parkedCount s.cu.cursors := by
        simp only [parkedCount_eq_countP]
        congr 1
        funext c
        have hc : ready.cu.cursors[c] =
            if n.seenBy.contains c then s.cu.cursors[c] else (s.cu.cursors[c]).takeReclaim n := by simp [ready, u]
        rw [hc]
        split
        · rfl
        · rw [Cursor.parkedTag_takeReclaim]
      exact Ledger.ext rfl rfl rfl rfl rfl rfl rfl rfl rfl rfl rfl rfl rfl rfl hp
    dsimp only
    split
    · exact .refl _
    · split
      case h_1 e sc hslot =>
        split
        · exact .of_eq hready
        · have hcu : (ledger s).cu = true := by simpa [ledger, u] using Option.isSome_of_eq_some hslot
          exact (Ledger.Settles.of_eq hready).andThen (scanReclaimed_settles ready n e sc (hready ▸ hcu))
      case h_2 => exact .of_eq hready

theorem exec_followTimeout_settles {c : Fin 4} {t : State} (h : exec (.followTimeout c) s = .next t) :
    (ledger s).Settles 0 (ledger t) := by
  obtain rfl := Host.Outcome.next.inj h
  dsimp only
  split
  case isTrue hparked =>
    split
    case h_1 tag htag =>
      rw [ledger_post]
      refine (onCursor_unparks s c _ ?_ (Cursor.parkedTag_unparked _)).post
      rw [Cursor.parkedTag, if_pos hparked.1, htag]
      rfl
    case h_2 => exact onCursor_settles s c _ (by simp [Cursor.parkedTag_unparked])
  case isFalse => exact .refl _

end

end Sys2Proof.Machine
end

section
/-! SUPPORT. The commands and happenings of the JS, the TB, the WU and the CP settle what they answer. -/

namespace Sys2Proof.Machine

section

variable (s : State)

/-! ## Time Base (R67 to R77) -/

theorem ledger_onTb {f : Tb → Tb} (h : (f s.tb).slot.isSome = s.tb.slot.isSome) : ledger (s.onTb f) = ledger s :=
  Ledger.ext rfl rfl rfl rfl rfl rfl rfl rfl rfl rfl rfl h rfl rfl rfl

theorem withTb_settles (o : Nat) (f : Entry → State → State)
    (hf : s.tb.slot.isSome = true → ∀ e, (ledger s).Settles 0 (ledger (f e s))) :
    (ledger s).Settles 0 (ledger (withTb o f s)) := by
  unfold withTb
  (repeat' split)
  case h_1 e hslot _ => exact hf (by rw [hslot]; rfl) e
  all_goals exact .refl _

theorem readTime_settles (e : Entry) (h : s.tb.slot.isSome = true) : (ledger s).Settles 0 (ledger (readTime e s)) := by
  unfold readTime
  split <;> exact answerTb_settles s e _ _ h

theorem setTime_settles (e : Entry) (h : s.tb.slot.isSome = true) : (ledger s).Settles 0 (ledger (setTime e s)) := by
  unfold setTime
  split
  · exact answerTb_settles s e _ _ h
  · exact .of_eq (ledger_onTb s h.symm)

theorem adjustTime_settles (e : Entry) (h : s.tb.slot.isSome = true) : (ledger s).Settles 0 (ledger (adjustTime e s)) := by
  unfold adjustTime
  dsimp only
  split
  · exact answerTb_settles s e _ _ h
  · refine (?_ : (ledger s).Settles 0 _).andThen (answerTb_settles _ e _ _ h)
    exact .refl _

theorem Tb.boundary_slot (t : Tb) : t.boundary.slot = if t.staged.isSome then none else t.slot := by
  unfold Tb.boundary
  split <;> simp [*]

theorem boundary_settles : (ledger s).Settles 0 (ledger (s.onTb Tb.boundary)) := by
  cases hs : s.tb.staged with
  | none => exact .of_eq (ledger_onTb s (by simp [Tb.boundary_slot, hs]))
  | some v => exact settles_of_held rfl rfl rfl (by simp [ledger, Ledger.held, Tb.boundary_slot, hs])

/-- A second boundary that takes a staged value answers the SET_TIME that staged it (R72). -/
theorem announceSet_settles : (ledger s).Settles 0 (ledger (announceSet s.tb (s.onTb Tb.boundary))) := by
  unfold announceSet
  split
  case h_1 v e o hstaged hslot =>
    have hfreed : (ledger s).Settles 1 (ledger (s.onTb Tb.boundary)) :=
      settles_of_held rfl rfl rfl (by simp [ledger, Ledger.held, Tb.boundary_slot, hstaged, hslot])
    rw [ledger_answer, ledger_latch]
    exact (hfreed.andThen (requestSystem_settles _ _)).post
  case h_2 => exact boundary_settles s

theorem boundaryTick_settles : (ledger s).Settles 0 (ledger (boundaryTick s)) := by
  unfold boundaryTick
  dsimp only
  split <;> exact announceSet_settles s

theorem Tb.slot_plainTick (t : Tb) : t.plainTick.slot = t.slot := by
  unfold Tb.plainTick
  split <;> rfl

theorem Tb.slot_decide (t : Tb) : t.decide.slot = t.slot := by
  unfold Tb.decide
  dsimp only
  (repeat' split) <;> rfl

theorem advanceTime_settles : (ledger s).Settles 0 (ledger (advanceTime s)) := by
  unfold advanceTime
  split
  · exact boundaryTick_settles s
  · refine .of_eq (ledger_onTb s ?_)
    split <;> simp only [Tb.slot_decide, Tb.slot_plainTick]

theorem ledger_beatEvent : ledger (beatEvent s) = ledger s :=
  Ledger.ext rfl rfl rfl rfl rfl rfl rfl rfl rfl rfl rfl rfl rfl rfl (parkedCount_map _ _ fun _ => rfl)

theorem ledger_countBeat : ledger (countBeat s) = ledger s := by
  unfold countBeat
  dsimp only
  (repeat' split)
  · rfl
  · rw [ledger_beatEvent]; rfl
  · rfl

theorem oscillatorTick_settles : (ledger s).Settles 0 (ledger (oscillatorTick s)) := by
  unfold oscillatorTick
  split
  · exact .refl _
  · rw [ledger_countBeat]
    exact advanceTime_settles s

/-! ## Watch Unit (R89 to R96) -/

theorem withWu_settles (o : Nat) (f : Entry → State → State)
    (hf : s.wu.slot.isSome = true → ∀ e, (ledger s).Settles 0 (ledger (f e s))) :
    (ledger s).Settles 0 (ledger (withWu o f s)) := by
  unfold withWu
  (repeat' split)
  case h_1 e hslot _ => exact hf (by rw [hslot]; rfl) e
  all_goals exact .refl _

theorem answerWu_onWu_settles (e : Entry) (r : Result) (fields : List Byte) (h : s.wu.slot.isSome = true) (f : Wu → Wu)
    (hf : (f s.wu).slot = s.wu.slot) : (ledger s).Settles 0 (ledger (answerWu e r fields (s.onWu f))) := by
  have hu : ledger (s.onWu f) = ledger s := by simp [ledger, hf]
  exact (Ledger.Settles.of_eq hu).andThen (answerWu_settles _ e r fields (by simpa [hf] using h))

theorem watchSet_settles (e : Entry) (h : s.wu.slot.isSome = true) : (ledger s).Settles 0 (ledger (watchSet e s)) := by
  unfold watchSet
  (repeat' split)
  case h_2 => exact answerWu_onWu_settles s e _ _ h _ rfl
  all_goals exact answerWu_settles s e _ _ h

theorem watchRead_settles (e : Entry) (h : s.wu.slot.isSome = true) : (ledger s).Settles 0 (ledger (watchRead e s)) := by
  unfold watchRead
  split
  · exact answerWu_settles s e _ _ h
  · dsimp only
    split
    · exact answerWu_settles s e _ _ h
    · split
      · exact answerWu_onWu_settles s e _ _ h _ rfl
      · exact answerWu_settles s e _ _ h

theorem watchOff_settles (e : Entry) (h : s.wu.slot.isSome = true) : (ledger s).Settles 0 (ledger (watchOff e s)) := by
  unfold watchOff
  (repeat' split)
  case isFalse => exact answerWu_onWu_settles s e _ _ h _ rfl
  all_goals exact answerWu_settles s e _ _ h

@[simp] theorem ledger_watchCommit (c : Notice) : ledger (watchCommit c s) = ledger s := by
  unfold watchCommit
  rw [ledger_latchIf]
  rfl

theorem watchBoundary_settles : (ledger s).Settles 0 (ledger (watchBoundary s)) := by
  unfold watchBoundary
  dsimp only
  rw [ledger_latchIf]
  refine (?_ : (ledger s).Settles 0 _).andThen (requestSystems_settle _ _)
  exact .refl _

/-! ## Journal Store (R39 to R44) -/

theorem withJs_settles (o : Nat) (f : Entry → State → State)
    (hf : s.js.slot.isSome = true → ∀ e, (ledger s).Settles 0 (ledger (f e s))) :
    (ledger s).Settles 0 (ledger (withJs o f s)) := by
  unfold withJs
  (repeat' split)
  case h_1 e hslot _ => exact hf (by rw [hslot]; rfl) e
  all_goals exact .refl _

@[simp] theorem ledger_askAuToStop : ledger (askAuToStop s) = ledger s := by
  unfold askAuToStop
  split <;> rfl

theorem format_settles (e : Entry) (h : s.js.slot.isSome = true) : (ledger s).Settles 0 (ledger (format e s)) := by
  unfold format
  split
  · exact answerJs_settles s e _ _ h
  · rw [ledger_askAuToStop]
    exact .of_eq (ledger_setJsSlot s _ h)

theorem ledger_ite_prepare (p : Prop) [Decidable p] : ledger (if p then prepare s else s) = ledger s := by
  split
  · exact ledger_prepare s
  · rfl

theorem setPolicy_settles (e : Entry) (h : s.js.slot.isSome = true) : (ledger s).Settles 0 (ledger (setPolicy e s)) := by
  unfold setPolicy
  split
  · exact answerJs_settles s e _ _ h
  · rw [ledger_ite_prepare, ledger_requestCopy]
    exact .of_eq (ledger_setJsSlot (s.onJs _) _ h)

theorem journalStatus_settles (e : Entry) (h : s.js.slot.isSome = true) :
    (ledger s).Settles 0 (ledger (journalStatus e s)) := by
  unfold journalStatus
  split <;> exact answerJs_settles s e _ _ h

theorem segmentInfo_settles (e : Entry) (h : s.js.slot.isSome = true) :
    (ledger s).Settles 0 (ledger (segmentInfo e s)) := by
  unfold segmentInfo
  (repeat' split) <;> exact answerJs_settles s e _ _ h

theorem exec_holdFloorReport_settles {t : State} (h : exec .holdFloorReport s = .next t) :
    (ledger s).Settles 0 (ledger t) := by
  obtain rfl := Host.Outcome.next.inj h
  split
  · exact .refl _
  · exact .of_eq (ledger_takeFloor _ _)

@[simp] theorem ledger_abandonClearing (z : Nat) : ledger (abandonClearing z s) = ledger s := by
  unfold abandonClearing
  split <;> rfl

theorem ledger_beginFormatting (z : Nat) (e : Entry) (h : s.js.slot.isSome = true) :
    ledger (beginFormatting z e s) = ledger s := by
  rw [beginFormatting_eq]
  exact Ledger.ext rfl rfl rfl rfl rfl rfl rfl rfl rfl h.symm rfl rfl rfl rfl rfl

theorem closeCursors_slot : (closeCursors s).js.slot = s.js.slot := by simp [closeCursors]

theorem exec_auStopped_settles {z : Nat} {t : State} (h : exec (.auStopped z) s = .next t) :
    (ledger s).Settles 0 (ledger t) := by
  by_cases hstop : s.js.auStopped = true ∧ ∃ e, s.js.slot = some { entry := e, phase := .formatStopping }
  · obtain ⟨ha, e, hslot⟩ := hstop
    rw [exec_auStopped_of_stopping z ha hslot] at h
    obtain rfl := Host.Outcome.next.inj h
    rw [ledger_beginFormatting _ _ _ (by rw [closeCursors_slot, State.onJs_js, hslot]; rfl)]
    exact closeCursors_settles (s.onJs (fun j => { j with auStopped := false }))
  · obtain rfl := Host.Outcome.next.inj h
    split
    case h_1 e ha hslot => exact absurd ⟨ha, e, hslot⟩ hstop
    case h_2 => exact .refl _

/-! ## The end of a clearing (R27, R44, R55) -/

theorem ledger_prepared (g : Seg) : ledger (prepared g s) = ledger s := rfl

theorem ledger_openFirst : ledger (openFirst s) = ledger s := by
  unfold openFirst openStates
  dsimp only
  rw [ledger_latchIf]
  rfl

theorem ledger_thirdPhaseSteps (e : Entry) : ∀ f ∈ thirdPhaseSteps e, ∀ s, ledger (f s) = ledger s := by
  intro f hf s
  simp only [thirdPhaseSteps, List.mem_cons, List.not_mem_nil, or_false] at hf
  obtain rfl | rfl | rfl | rfl | rfl | rfl := hf
  · rw [ledger_requestCopy, ledger_openFirst]
  · exact ledger_prepare s
  · rfl
  · rfl
  · rfl
  · exact ledger_requestCopy s

theorem ledger_foldl {l : List (State → State)} (h : ∀ f ∈ l, ∀ s, ledger (f s) = ledger s) :
    ledger (l.foldl (fun s f => f s) s) = ledger s := by
  induction l generalizing s with
  | nil => rfl
  | cons f l ih => exact (ih _ fun g hg => h g (List.mem_cons_of_mem f hg)).trans (h f List.mem_cons_self s)

theorem ledger_thirdPhase (e : Entry) (n : Nat) : ledger (thirdPhase e n s) = ledger s :=
  ledger_foldl s fun f hf => ledger_thirdPhaseSteps e f (List.mem_of_mem_take hf)

/-- FORMATTED's request takes the front of the lane, and the lane keeps to its four places. -/
theorem placeFormatted_settles (q : SysRequest) : (ledger s).Settles 0 (ledger (placeFormatted q s)) := by
  have hplaced : (ledger s).Settles 0 (ledger (s.onAu (fun a => { a with systemLane := q :: a.systemLane.take 3 }))) :=
    { Ledger.Settles.refl (ledger s) with system := fun _ => by simp [ledger] }
  unfold placeFormatted
  dsimp only
  split
  · rw [ledger_loseSystem]; exact hplaced
  · exact hplaced

theorem formatReady_settles (e : Entry) (n : Nat) (w : CopyWait) (h : s.js.slot.isSome = true) :
    (ledger s).Settles 0 (ledger (formatReady e n w s)) := by
  let u := placeFormatted (SysRequest.make .formatted e.renumbers.toNat (be32 n)) s
  have hu : (ledger (formatReady e n w s)) = ledger u :=
    Ledger.ext rfl rfl rfl rfl rfl rfl rfl rfl rfl (by simpa [ledger, u, formatReady] using h.symm) rfl rfl rfl rfl rfl
  exact (placeFormatted_settles s _).andThen (.of_eq hu)

theorem formatThirdPhase_settles (e : Entry) (n : Nat) (h : s.js.slot.isSome = true) :
    (ledger s).Settles 0 (ledger (formatThirdPhase e n s)) := by
  have hthird := ledger_thirdPhase s e 6
  exact (Ledger.Settles.of_eq hthird).andThen
    (formatReady_settles _ e n _ ((congrArg Ledger.js hthird).trans h))

theorem formatCleared_settles (g : Seg) : (ledger s).Settles 0 (ledger (formatCleared g s)) := by
  unfold formatCleared
  split
  case h_1 e n hslot =>
    split
    · exact .refl _
    · exact formatThirdPhase_settles s e n (by rw [hslot]; rfl)
  case h_2 => exact .refl _

theorem ledger_coldCleared (g : Seg) : ledger (coldCleared g s) = ledger s := by
  unfold coldCleared
  split
  · rfl
  · exact ledger_openFirst s

/-! ## The end of a control block write (R36, R37) -/

theorem ledger_copyWritten (w : CopyWrite) : ledger (copyWritten w s) = ledger s := by
  unfold copyWritten State.setCopy
  cases w.target <;> rfl

theorem finishFormat_settles : (ledger s).Settles 0 (ledger (finishFormat s)) := by
  unfold finishFormat
  split
  case h_1 sl hslot =>
    split
    · rw [ledger_answer]
      exact (freeJs_settles s (by rw [hslot]; rfl)).post
    all_goals exact .refl _
  case h_2 => exact .refl _

theorem formattedEnded_settles : (ledger s).Settles 0 (ledger (formattedEnded s)) := by
  unfold formattedEnded
  refine (Ledger.Settles.of_eq ?_).andThen (finishFormat_settles _)
  refine Ledger.ext rfl rfl rfl rfl rfl rfl rfl rfl rfl ?_ rfl rfl rfl rfl rfl
  simp only [ledger, State.onJs_js]
  split <;> simp [*]

theorem jsCompletes_settles : (ledger s).Settles 0 (ledger (jsCompletes s)) := by
  unfold jsCompletes
  split
  case h_1 e hslot => exact answerJs_settles s e _ _ (by rw [hslot]; rfl)
  case h_2 e a hslot =>
    have hset := ledger_setJsSlot s { entry := e, phase := .formatEnding a none } (by rw [hslot]; rfl)
    exact (Ledger.Settles.of_eq hset).andThen (finishFormat_settles _)
  case h_3 => exact .refl _

theorem cpCompletes_settles : (ledger s).Settles 0 (ledger (cpCompletes s)) := by
  unfold cpCompletes
  split
  case h_1 e hslot => exact answerCp_settles s e _ _ (by rw [hslot]; rfl)
  case h_2 => exact .refl _

theorem copyCompletes_settles : (ledger s).Settles 0 (ledger (copyCompletes s)) :=
  (jsCompletes_settles s).andThen (cpCompletes_settles _)

theorem ledger_nextCopy : ledger (nextCopy s) = ledger s := by
  unfold nextCopy
  split
  · simp [ledger, startCopy, startCopyTo]
  · rfl

end

end Sys2Proof.Machine
end

section
/-! SUPPORT. The receiver, the acknowledges and the AU's notices leave the CP's command slot as it is; the capture commands
settle what they answer (R130 to R154). -/

namespace Sys2Proof.Machine

/-! ## The command slot of the CP -/

namespace Cp

variable (p : Cp)

@[simp] theorem slot_dropReception : p.dropReception.slot = p.slot := by
  unfold dropReception
  (repeat' split) <;> rfl

@[simp] theorem slot_enterAcking : p.enterAcking.slot = p.slot := by
  unfold enterAcking
  split <;> rfl

@[simp] theorem slot_toWaitIdle : p.toWaitIdle.slot = p.slot := slot_enterAcking _

@[simp] theorem slot_toIdle : p.toIdle.slot = p.slot := slot_enterAcking _

@[simp] theorem slot_settleSlot (i : Fin 2) : (p.settleSlot i).slot = p.slot := by
  unfold settleSlot
  (repeat' split) <;> rfl

@[simp] theorem slot_dropAck (i : Fin 2) : (p.dropAck i).slot = p.slot := slot_settleSlot _ i

@[simp] theorem slot_fallDue (i : Fin 2) : (p.fallDue i).slot = p.slot := by
  unfold fallDue
  split
  · exact slot_dropAck p i
  · rfl

@[simp] theorem slot_afterResolution (i : Fin 2) : (p.afterResolution i).slot = p.slot := by
  unfold afterResolution
  split
  · split
    · split
      · exact slot_fallDue p i
      all_goals rfl
    · rfl
  · rfl

theorem slot_afterResolutions (l : List (Fin 2)) :
    (l.foldl (fun p j => p.afterResolution j) p).slot = p.slot := by
  induction l generalizing p with
  | nil => rfl
  | cons i l ih => exact (ih _).trans (slot_afterResolution p i)

@[simp] theorem slot_headerByte (c : Byte) : (p.headerByte c).slot = p.slot := by
  unfold headerByte
  split
  · dsimp only
    split
    · rfl
    · unfold headerDone
      split
      · split
        · rfl
        · split <;> rfl
      · exact slot_toWaitIdle _
  · rfl

@[simp] theorem slot_recordComplete (r : Reception) (l : List Byte) : (p.recordComplete r l).slot = p.slot := by
  unfold recordComplete
  dsimp only
  (repeat' split) <;> rfl

@[simp] theorem slot_verify (arrival : Stamp) (unset : Bool) (i : Fin 2) : (p.verify arrival unset i).slot = p.slot := by
  unfold verify
  split
  · exact slot_afterResolution _ i
  · rfl

@[simp] theorem slot_frameSent (f : Frame) : (p.frameSent f).slot = p.slot := by
  unfold frameSent
  dsimp only
  split
  · exact slot_settleSlot _ _
  · rfl

@[simp] theorem slot_recordCommitted (n : CpNotice) : (p.recordCommitted n).slot = p.slot := by
  unfold recordCommitted
  split
  · exact (slot_enterAcking _).trans (slot_afterResolution _ _)
  · rfl

@[simp] theorem slot_recordRefused (i : Fin 2) (k : Nat) : (p.recordRefused i k).slot = p.slot := by
  unfold recordRefused
  split
  · exact (slot_enterAcking _).trans (slot_afterResolutions _ _)
  · rfl

end Cp

section

variable (s : State)

theorem ledger_onCp {f : Cp → Cp} (h : (f s.cp).slot.isSome = s.cp.slot.isSome) : ledger (s.onCp f) = ledger s :=
  Ledger.ext rfl rfl rfl rfl rfl rfl rfl rfl rfl rfl rfl rfl rfl h rfl

/-! ## The receiver and the acknowledges -/

theorem ledger_framingFailure : ledger (framingFailure s) = ledger s := by
  unfold framingFailure
  rw [ledger_latch]
  exact ledger_onCp s (by simp)

theorem ledger_recordByte (c : Byte) (r : Reception) : ledger (recordByte c r s) = ledger s := by
  unfold recordByte
  dsimp only
  split
  · exact ledger_framingFailure s
  · split
    · rfl
    · exact ledger_onCp s (by simp)

theorem ledger_endMarker (r : Reception) : ledger (endMarker r s) = ledger s := by
  unfold endMarker
  dsimp only
  split
  · exact ledger_onCp s (by simp)
  · split
    · exact ledger_onCp s (by simp [Cp.probeDone, Cp.onNode])
    · rw [ledger_latch]
      exact ledger_onCp s (by simp [Cp.discardDone, Cp.onNode])

theorem ledger_trailerByte (c : Byte) (good : Bool) : ledger (trailerByte c good s) = ledger s := by
  unfold trailerByte
  (repeat' split)
  · exact ledger_endMarker s _
  · exact ledger_framingFailure s
  · rfl

theorem ledger_recordsByte (c : Byte) (good : Bool) : ledger (recordsByte c good s) = ledger s := by
  unfold recordsByte
  (repeat' split)
  · exact ledger_recordByte s c _
  · exact ledger_framingFailure s
  · rfl

theorem ledger_receive (c : Byte) (good : Bool) : ledger (receive c good s) = ledger s := by
  unfold receive
  split
  · rfl
  · rfl
  · rfl
  · split
    · rfl
    · exact ledger_onCp s (by simp)
  · split
    · exact ledger_onCp s (by simp)
    · exact ledger_framingFailure s
  · exact ledger_recordsByte s c good
  · exact ledger_trailerByte s c good
  · split
    · split
      · exact ledger_recordsByte s c good
      · exact ledger_trailerByte s c good
    · rfl

theorem ledger_applyCaptureSet (e : Entry) (h : s.cp.slot.isSome = true) : ledger (applyCaptureSet e s) = ledger s := by
  unfold applyCaptureSet
  dsimp only
  rw [ledger_requestCopy]
  exact ledger_onCp s h.symm

theorem ledger_afterFrame : ledger (afterFrame s) = ledger s := by
  unfold afterFrame
  split
  case h_1 e hslot => exact ledger_applyCaptureSet s e (by rw [hslot]; rfl)
  case h_2 => split <;> rfl

/-! ## The capture commands (R152 to R154) -/

theorem withCp_settles (o : Nat) (f : Entry → State → State)
    (hf : s.cp.slot.isSome = true → ∀ e, (ledger s).Settles 0 (ledger (f e s))) :
    (ledger s).Settles 0 (ledger (withCp o f s)) := by
  unfold withCp
  (repeat' split)
  case h_1 e hslot _ => exact hf (by rw [hslot]; rfl) e
  all_goals exact .refl _

theorem captureSet_settles (e : Entry) (h : s.cp.slot.isSome = true) : (ledger s).Settles 0 (ledger (captureSet e s)) := by
  unfold captureSet
  (repeat' split)
  · exact answerCp_settles s e _ _ h
  · exact .of_eq (ledger_onCp s h.symm)
  · exact .of_eq (ledger_applyCaptureSet s e h)

theorem nodeSet_settles (e : Entry) (h : s.cp.slot.isSome = true) : (ledger s).Settles 0 (ledger (nodeSet e s)) := by
  unfold nodeSet
  (repeat' split)
  · exact answerCp_settles s e _ _ h
  · exact answerCp_settles s e _ _ h
  · rw [ledger_requestCopy, ledger_onCp]
    · exact .of_eq (ledger_onCp s rfl)
    · exact h.symm

theorem nodeRead_settles (e : Entry) (h : s.cp.slot.isSome = true) : (ledger s).Settles 0 (ledger (nodeRead e s)) := by
  have hread (f : Cp → Cp) (hf : (f s.cp).slot = s.cp.slot) (p : Prop) [Decidable p] (fields : List Byte) :
      (ledger s).Settles 0 (ledger (answerCp e .done fields (if p then s.onCp f else s))) := by
    split
    · exact (Ledger.Settles.of_eq (ledger_onCp s (hf ▸ rfl))).andThen (answerCp_settles _ e _ _ (by simpa [hf] using h))
    · exact answerCp_settles s e _ _ h
  unfold nodeRead
  split
  · exact answerCp_settles s e _ _ h
  · split
    · exact hread _ rfl _ _
    · refine hread _ ?_ _ _
      unfold Cp.cleared
      split <;> rfl

end

end Sys2Proof.Machine
end

section
/-! SUPPORT. The Host Port: dispatch moves a command from the queue to its unit or to its answer, an accepted command is one
more outstanding and a popped response one less (R161 to R167). -/

namespace Sys2Proof.Machine

section

variable (s : State)

/-! ## Dispatch (R47, R164, R165) -/

/-- The head entry leaves the command queue. -/
theorem takeHead_settles {e : Entry} {rest : List Entry} (h : s.hp.commands = e :: rest) :
    (ledger s).Settles 1 (ledger (s.onHp (fun h => { h with commands := rest }))) :=
  { Ledger.Settles.refl (ledger s) with
    queued := fun _ => by simp [ledger, h]
    live := by simp [ledger, Ledger.live, Ledger.held, h] }

/-- A command on its way joins the host lane in its free place, or is answered (R47). -/
theorem takeAppend_settles {l : Ledger} (e : Entry) (hfree : laneFree s.au = true) (h : l.Settles 1 (ledger s)) :
    l.Settles 0 (ledger (takeAppend e s)) := by
  unfold takeAppend
  split
  · rw [ledger_answer]
    exact h.post
  · have hlive := h.live
    have hplaced := h.placed
    have hlt : s.au.hostLane.length < 2 := by simpa [laneFree] using hfree
    refine { h with live := ?_, lane := fun _ => ?_, placed := fun hl hr => ?_ }
    · simp only [ledger, Ledger.live, Ledger.held, State.onAu, List.length_map, List.length_append,
        List.length_cons, List.length_nil] at hlive ⊢
      omega
    · simp [ledger]; omega
    · have := hplaced hl hr
      simp only [ledger, State.onAu_au, List.map_append, List.mem_append] at this ⊢
      exact .inl this

/-- Dispatch fills a free slot with the command taken from the queue. -/
theorem placeIn_settles {l : Ledger} (u : CmdUnit) (e : Entry) (hfree : unitFree u s = true) (h : l.Settles 1 (ledger s)) :
    l.Settles 0 (ledger (placeIn u e s)) := by
  have hlive := h.live
  cases u with
  | au => exact takeAppend_settles s e hfree h
  | js | cu | tb | wu | cp =>
    have hnone := Option.isNone_iff_eq_none.1 hfree
    refine { h with live := ?_ }
    simp only [placeIn, ledger, Ledger.live, Ledger.held, State.onJs, State.onCu, State.onTb, State.onWu, State.onCp,
      hnone, Option.isSome_none, Option.isSome_some, Bool.toNat_true, Bool.toNat_false] at hlive ⊢
    omega

theorem unitFree_onHp (u : CmdUnit) (f : Hp → Hp) : unitFree u (s.onHp f) = unitFree u s := by
  cases u <;> rfl

theorem exec_dispatch_settles {t : State} (h : exec .dispatch s = .next t) : (ledger s).Settles 0 (ledger t) := by
  obtain rfl := Host.Outcome.next.inj h
  split
  case h_1 => exact .refl _
  case h_2 e rest hq =>
    have htaken := takeHead_settles s hq
    dsimp only
    split
    · rw [ledger_answer]
      exact htaken.post
    · next u _ =>
      split
      case isTrue hfree => exact placeIn_settles _ u e (by rw [unitFree_onHp]; exact hfree) htaken
      case isFalse => exact .refl _

theorem exec_append_settles {t : State} (h : exec .append s = .next t) : (ledger s).Settles 0 (ledger t) := by
  obtain rfl := Host.Outcome.next.inj h
  split
  case h_1 e rest hq =>
    split
    case isTrue hfree => exact takeAppend_settles _ e hfree.2 (takeHead_settles s hq)
    case isFalse => exact .refl _
  case h_2 => exact .refl _

/-! ## Transactions (R157 to R159) -/

theorem Cursor.parkedTag_showHeld (x : Cursor) : x.showHeld.parkedTag = x.parkedTag := by
  unfold Cursor.showHeld
  split <;> rfl

theorem ledger_closeTx : ledger (closeTx s) = ledger s :=
  Ledger.ext rfl rfl rfl rfl rfl rfl rfl rfl rfl rfl rfl rfl rfl rfl (parkedCount_map _ _ Cursor.parkedTag_showHeld)

theorem ledger_onBus {f : State → State} (hf : ledger (f s) = ledger s) : ledger (onBus f s) = ledger s := by
  unfold onBus
  split
  · exact hf
  · rfl

theorem ledger_openPort (p : TxPort) : ledger (openPort p s) = ledger s := ledger_closeTx s

theorem ledger_setCs (low : Bool) : ledger (setCs low s) = ledger s := rfl

/-- The rise of CS# keeps what its effect on the HP keeps. -/
theorem rise_keeps (f : Hp → Hp) (hf : (ledger (closeTx s)).Keeps (ledger ((closeTx s).onHp f))) :
    (ledger s).Keeps (ledger (rise f s)) := by
  unfold rise onBus
  rw [ledger_setCs]
  split
  · exact ledger_closeTx s ▸ hf
  · exact .refl _

/-! ## An accepted command and a popped response (R162, R163, R167) -/

theorem Hp.judge_eq_none {bytes : List Byte} {h : Hp} (hj : h.judge bytes = none) :
    h.offline = false ∧ h.outstanding < 8 ∧ (parseEntry bytes).tag ≠ 0xFF ∧ (parseEntry bytes).tag ∉ h.tags := by
  unfold Hp.judge at hj
  dsimp only at hj
  split_ifs at hj with hlen hoff hfull htag
  exact ⟨Bool.not_eq_true _ ▸ hoff, Nat.not_le.1 hfull, fun he => htag (.inl he), fun hm => htag (.inr hm)⟩

theorem cmd_keeps (bytes : List Byte) : (ledger s).Keeps (ledger (s.onHp (Hp.cmd bytes))) := by
  cases hj : s.hp.judge bytes with
  | some r =>
    have hcmd : s.hp.cmd bytes = { s.hp with reject := r, lastAccepted := false } := by simp [Hp.cmd, hj]
    refine (Ledger.Settles.of_eq (l := ledger s) ?_).keeps
    simp [ledger, hcmd]
  | none =>
    obtain ⟨hon, h8, hff, hnew⟩ := Hp.judge_eq_none hj
    let taken : Hp :=
      { s.hp with commands := s.hp.commands ++ [parseEntry bytes], tags := s.hp.tags ++ [(parseEntry bytes).tag],
                  outstanding := s.hp.outstanding + 1, lastAccepted := true }
    have hcmd : s.onHp (Hp.cmd bytes) = s.onHp (fun _ => taken) := by simp [State.onHp, Hp.cmd, hj, taken]
    rw [hcmd]
    refine ⟨⟨?_, id⟩, ?_⟩
    · rintro ⟨-, hn, hf⟩
      refine ⟨h8, ?_, ?_⟩
      · exact List.nodup_append.2 ⟨hn, List.nodup_singleton _, fun a ha b hb he => hnew (List.mem_singleton.1 hb ▸ he ▸ ha)⟩
      · simp only [ledger, State.onHp_hp, taken, List.mem_append, List.mem_singleton, not_or]
        exact ⟨hf, hff.symm⟩
    · intro hl
      have hrun : s.pc.supply = .run := hl.online.1 hon
      have hcount := hl.counted hrun
      refine ⟨hl.online, fun _ => ?_, fun hr => absurd hrun hr, fun hr => absurd hrun hr, hl.placed⟩
      simp [ledger, taken, Ledger.live, Ledger.held] at hcount ⊢
      omega

theorem pop_keeps {r : Response} {rest : List Response} (h : s.hp.responses = r :: rest) :
    (ledger s).Keeps (ledger (s.onHp (Hp.pop r))) := by
  refine ⟨⟨?_, id⟩, ?_⟩
  · rintro ⟨h8, hn, hf⟩
    exact ⟨(Nat.sub_le _ _).trans h8, hn.erase _, fun hm => hf (List.mem_of_mem_erase hm)⟩
  · intro hl
    have hrun : s.pc.supply = .run := by
      by_contra hr
      simpa [ledger, h] using (hl.emptied hr).2
    have hcount := hl.counted hrun
    refine ⟨hl.online, fun _ => ?_, fun hr => absurd hrun hr, fun hr => absurd hrun hr, hl.placed⟩
    simp [ledger, Hp.pop, Ledger.live, Ledger.held, h] at hcount ⊢
    omega

theorem exec_rspPop_keeps {clocked : Nat} {t : State} (h : exec (.rspPop clocked) s = .next t) :
    (ledger s).Keeps (ledger t) := by
  obtain rfl := Host.Outcome.next.inj h
  refine rise_keeps s _ ?_
  unfold Hp.popEffect
  split
  · split
    case isTrue hr =>
      obtain ⟨rest, hrest⟩ := List.head?_eq_some_iff.1 hr.2
      exact pop_keeps _ hrest
    case isFalse => exact .refl _
  · exact .refl _

theorem ack_settles (bytes : List Byte) : (ledger s).Settles 0 (ledger (s.onHp (Hp.ack bytes))) := by
  refine .of_eq ?_
  simp only [ledger, State.onHp_hp, Hp.ack]
  split <;> rfl

theorem setMask_settles (bytes : List Byte) : (ledger s).Settles 0 (ledger (s.onHp (Hp.setMask bytes))) := by
  refine .of_eq ?_
  simp only [ledger, State.onHp_hp, Hp.setMask]
  split <;> rfl

/-- The end of a transaction that has taken its bytes keeps what its port's effect keeps. -/
theorem finish_keeps (p : Port) (bytes : List Byte)
    (hp : ∀ u : State, (ledger u).Keeps (ledger (u.onHp ((takeBytes p bytes s).hp.riseEffect)))) :
    (ledger s).Keeps (ledger (finish p bytes s)) := by
  unfold finish onBus
  dsimp only
  split
  case isTrue => exact rise_keeps (takeBytes p bytes s) _ (hp _)
  case isFalse hoff =>
    unfold rise onBus
    rw [if_neg hoff]
    exact .refl _

end

end Sys2Proof.Machine
end

section
/-! SUPPORT. The append of a record, from the arbiter's choice to its end: it keeps the lanes and the count of commands, also
where its end enters RUN or closes the AU (R48 to R64, R176, R181, R194). -/

namespace Sys2Proof.Machine

/-! ## On the ledger alone -/

namespace Ledger

variable {l m : Ledger}

/-- A host record is in progress only with its lane place. -/
theorem settles_recorded (b : Bool) (h : b = true → l.placed → .inProgress ∈ l.lane) :
    l.Settles 0 { l with hostRecord := b } :=
  { Settles.refl l with placed := fun hl hb => h hb hl }

theorem settles_unrecorded (l : Ledger) : l.Settles 0 { l with hostRecord := false } :=
  settles_recorded false nofun

/-- The host record in progress leaves its lane place and is answered. -/
theorem hostEnded_keeps (h : l.hostRecord = true) :
    l.Keeps { l with lane := l.lane.filter (· != PlaceState.inProgress), hostRecord := false }.post := by
  let m : Ledger := { l with lane := l.lane.filter (· != PlaceState.inProgress), hostRecord := false }
  have hlen : m.lane.length ≤ l.lane.length := List.length_filter_le _ _
  refine ⟨?_, ?_⟩
  · unfold Ledger.post
    split <;> exact ⟨id, And.imp_right hlen.trans⟩
  · intro hl
    have hlt : m.lane.length < l.lane.length :=
      List.length_filter_lt_length_iff_exists.2 ⟨_, hl.placed h, by simp⟩
    have hfreed : l.Settles 1 m :=
      { Settles.refl l with
        live := by simp only [m, live, held] at hlt ⊢; omega
        lane := hlen.trans
        placed := fun _ => nofun }
    exact hfreed.post.keeps.sound hl

/-- Nothing of a ledger but its lanes and the record in progress goes into HOLDUP (R176, R182). -/
theorem heldUp_keeps (hsupply : m.supply = .holdup) (hoff : m.offline = true) (hout : m.outstanding = 0) (htags : m.tags = [])
    (hc : m.commands = 0) (hr : m.responses = 0) (hsys : m.system ≤ l.system) (hlane : m.lane.length ≤ l.lane.length)
    (hplaced : l.placed → m.placed) : l.Keeps m := by
  have hrun : m.supply ≠ .run := by simp [hsupply]
  refine ⟨⟨fun _ => ?_, And.imp hsys.trans hlane.trans⟩, fun hl => ⟨by simp [hoff, hrun], fun h => absurd h hrun, fun _ => ⟨hc, hr⟩,
    fun _ h => absurd hsupply h, hplaced hl.placed⟩⟩
  exact ⟨by simp [hout], by simp [htags], by simp [htags]⟩

end Ledger

section

variable (s : State)

/-! ## The record in progress -/

theorem ledger_setRecord (r : Option InProgress) :
    ledger (setRecord r s) = { ledger s with hostRecord := r.any (·.origin.isHost) } := rfl

theorem ledger_beginWrite (opened undo : List Host.Cell) (r : InProgress) :
    ledger (beginWrite opened undo r s) = { ledger s with hostRecord := r.origin.isHost } := by
  unfold beginWrite
  split <;> rfl

theorem ledger_appendChecks (r : InProgress) :
    ledger (appendChecks r s) = { ledger s with hostRecord := r.origin.isHost } := by
  unfold appendChecks
  split
  · split
    · exact ledger_beginWrite s [] [] r
    · rfl
  all_goals rfl

theorem ledger_openFor (g : Seg) (first : Nat) : ledger (openFor g first s) = ledger s := by
  rw [openFor_eq, ledger_prepare, ledger_requestCopy]
  rfl

theorem ledger_openAndWrite (r : InProgress) :
    ledger (openAndWrite r s) = { ledger s with hostRecord := r.origin.isHost } := by
  unfold openAndWrite
  split
  · rw [ledger_beginWrite, ledger_openFor]
  all_goals rfl

/-- A record that goes on keeps the origin it has. -/
theorem ledger_same_origin {r r' : InProgress} (hr : s.au.record = some r) (ho : r'.origin = r.origin) :
    { ledger s with hostRecord := r'.origin.isHost } = ledger s := by
  simp [ledger, Au.hostRecord, hr, ho]

theorem setRecord_none_settles : (ledger s).Settles 0 (ledger (setRecord none s)) := Ledger.settles_unrecorded _

/-! ## Hold-up (R176, R181 to R183) -/

theorem ledger_endAuHoldup : ledger (endAuHoldup s) = { ledger s with hostRecord := false } := rfl

theorem ledger_closeAu : ledger (closeAu s) = { ledger s with system := 0, lane := [], hostRecord := false } := by
  unfold closeAu
  dsimp only
  split
  · rfl
  · split
    · rw [ledger_endAuHoldup, ledger_appendChecks]; rfl
    · rw [ledger_appendChecks]; rfl

theorem closeAu_settles : (ledger s).Settles 0 (ledger (closeAu s)) := by
  rw [ledger_closeAu]
  exact { Ledger.Settles.refl (ledger s) with
    live := by simp [Ledger.live, Ledger.held]
    system := fun _ => Nat.zero_le _
    lane := fun _ => Nat.zero_le _
    placed := fun _ => nofun }

theorem enterHoldup_keeps : (ledger s).Keeps (ledger (enterHoldup s)) := by
  unfold enterHoldup
  dsimp only
  split
  · exact Ledger.heldUp_keeps rfl rfl rfl rfl rfl rfl le_rfl le_rfl id
  · rw [ledger_closeAu]
    exact Ledger.heldUp_keeps rfl rfl rfl rfl rfl rfl (Nat.zero_le _) (Nat.zero_le _) fun _ => nofun

/-! ## The entry into RUN (R194, R197) -/

/-- RUN is entered with nothing waiting, held or answered. -/
theorem Ledger.entersRun_keeps {l : Ledger} (h : l.supply ≠ .run) (hh : l.supply ≠ .holdup) :
    l.Keeps { l with supply := .run, offline := false } := by
  refine ⟨⟨id, id⟩, fun hl => ⟨by simp, fun _ => ?_, fun hr => absurd rfl hr, fun hr => absurd rfl hr, hl.placed⟩⟩
  have hlive : l.live = 0 := by simp [Ledger.live, hl.emptied h, hl.idle h hh]
  exact (le_of_eq hlive).trans (Nat.zero_le _)

/-- RUN as it is entered, before the level of PFI is looked at: the journal READY, the READY flag latched, the HP online with
its values of R160, and after cold initialisation the latch cleared and a control block write requested. -/
def running (s : State) : State :=
  let u := if s.pc.supply = .coldInit then requestCopy s else s
  { u with
    pc := { u.pc with supply := .run, latch := if s.pc.supply = .coldInit then false else u.pc.latch }
    js := { u.js with journal := .ready }
    hp := { u.hp with
      offline := false, reject := .noReject, lastAccepted := false, unknownPorts := 0, tx := none
      events := u.hp.events ||| 0x40 }
    wu := { u.wu with notices := [] }
    cp := { u.cp with receiver := if u.cp.enabled then .waitIdle else .disabled } }

theorem running_pfiLow : (running s).pc.pfiLow = s.pc.pfiLow := by
  unfold running
  dsimp only
  split <;> simp

theorem enterRun_eq : enterRun s = if s.pc.pfiLow then enterHoldup (running s) else running s := by
  rw [← running_pfiLow]
  unfold enterRun running
  split <;> rfl

theorem ledger_running : ledger (running s) = { ledger s with supply := .run, offline := false } := by
  let u := if s.pc.supply = .coldInit then requestCopy s else s
  have hu : ledger u = ledger s := by
    unfold u
    split
    · exact ledger_requestCopy s
    · rfl
  exact hu ▸ rfl

theorem enterRun_keeps (h : s.pc.supply = .recover ∨ s.pc.supply = .coldInit) : (ledger s).Keeps (ledger (enterRun s)) := by
  have hrun : (ledger s).Keeps (ledger (running s)) := by
    rw [ledger_running]
    obtain h | h := h <;> exact Ledger.entersRun_keeps (by simp [ledger, h]) (by simp [ledger, h])
  rw [enterRun_eq]
  split
  · exact hrun.trans (enterHoldup_keeps _)
  · exact hrun

/-! ## The end of an append (R58 to R64) -/

theorem afterAppend_keeps (o : Origin) : (ledger s).Keeps (ledger (afterAppend o s)) := by
  unfold afterAppend
  split
  · split
    · exact enterRun_keeps s ‹_›
    · exact .refl _
  · split
    · exact enterRun_keeps s ‹_›
    · exact .refl _
  · exact (formattedEnded_settles s).keeps
  all_goals exact .refl _

theorem stopsAfterAppend_settles : (ledger s).Settles 0 (ledger (stopsAfterAppend s)) := by
  unfold stopsAfterAppend
  (repeat' split)
  · exact closeAu_settles s
  all_goals exact .refl _

theorem endAppend_keeps (o : Origin) : (ledger (setRecord none s)).Keeps (ledger (endAppend o s)) := by
  unfold endAppend
  split
  · exact .refl _
  · exact (afterAppend_keeps _ o).trans (stopsAfterAppend_settles _).keeps

theorem ledger_freePlace : ledger (freePlace s) =
    { ledger s with lane := (ledger s).lane.filter (· != PlaceState.inProgress) } := by
  simp [ledger, freePlace, Au.hostRecord, List.filter_map, Function.comp_def]

/-- A host record in progress leaves its place with its answer. -/
theorem freePlace_post_keeps {r : InProgress} {tag : Byte} (x : Response) (hr : s.au.record = some r)
    (ho : r.origin = .host tag) : (ledger s).Keeps (ledger (setRecord none (freePlace (post x s)))) := by
  have hended := Ledger.hostEnded_keeps (l := ledger s) ((Au.hostRecord_iff _).2 ⟨r, tag, hr, ho⟩)
  have heq : ledger (setRecord none (freePlace (post x s))) =
      { ledger s with lane := (ledger s).lane.filter (· != PlaceState.inProgress), hostRecord := false }.post := by
    rw [ledger_setRecord, ledger_freePlace, ledger_post]
    unfold Ledger.post
    split <;> rfl
  exact heq ▸ hended

theorem ledger_commitAndTell (r : InProgress) : ledger (commitAndTell r s) = ledger s := rfl

/-- A commit answers a host record and frees its place; for the others it leaves the ledger. -/
theorem commit_keeps {r : InProgress} (hr : s.au.record = some r) :
    (ledger s).Keeps (ledger (setRecord none (commit r s))) := by
  cases ho : r.origin with
  | host tag =>
    rw [commit_of_host s ho, ← ledger_commitAndTell s r]
    exact freePlace_post_keeps _ _ (by exact hr) ho
  | system kind =>
    rw [commit_of_system s ho]
    exact (setRecord_none_settles _).keeps
  | capture i k =>
    rw [commit_of_capture s ho]
    exact (setRecord_none_settles (commitAndTell r s)).keeps

theorem exec_writeStepEnd_keeps {t : State} (h : exec .writeStepEnd s = .next t) : (ledger s).Keeps (ledger t) := by
  obtain rfl := Host.Outcome.next.inj h
  split
  next r hr =>
    split
    · exact (commit_keeps s hr).trans (endAppend_keeps _ _)
    all_goals exact .refl _
  next => exact .refl _

/-- A refusal answers a host record and frees its place; the others are dropped, or wait for the CP. -/
theorem refuse_keeps (code : Result) {r r' : InProgress} (hr : s.au.record = some r') (ho : r.origin = r'.origin) :
    (ledger s).Keeps (ledger (refuse code r s)) := by
  unfold refuse
  split
  next tag htag => exact (freePlace_post_keeps s _ hr (ho ▸ htag)).trans (endAppend_keeps _ _)
  next => exact (setRecord_none_settles s).keeps.trans (endAppend_keeps _ _)
  next =>
    rw [← ledger_loseSystem s]
    exact (setRecord_none_settles (loseSystem s)).keeps.trans (endAppend_keeps _ _)
  next i k hi =>
    refine (Ledger.Settles.of_eq ?_).keeps
    exact ledger_same_origin s hr (r' := { r with phase := .refused code }) ho

theorem settleRefusal_keeps : (ledger s).Keeps (ledger (settleRefusal s)) := by
  unfold settleRefusal
  split
  next r hr =>
    split
    · exact refuse_keeps s _ hr rfl
    all_goals exact .refl _
  next => exact .refl _

theorem endRefused_keeps : (ledger s).Keeps (ledger (endRefused s)) := by
  unfold endRefused
  split
  next r hr =>
    split
    · exact (setRecord_none_settles s).keeps.trans (endAppend_keeps _ _)
    all_goals exact .refl _
  next => exact .refl _

theorem exec_refusalNotice_keeps {t : State} (h : exec .refusalNotice s = .next t) : (ledger s).Keeps (ledger t) := by
  obtain rfl := Host.Outcome.next.inj h
  split
  next n _ =>
    split
    · refine Ledger.Keeps.trans (Ledger.Settles.of_eq ?_).keeps (endRefused_keeps _)
      split
      · rfl
      · rw [ledger_latch]
        exact (ledger_onCp _ (by simp)).trans (ledger_onCp s rfl)
    · exact .refl _
  next => exact .refl _

/-! ## The arbiter's choice (R48 to R53) -/

/-- The append of a taken record, whose host lane place is taken with it. -/
theorem beginAppend_keeps {l : Ledger} (data : Record) (o : Origin) (h : l.Settles 0 (ledger s))
    (ho : o.isHost = true → .inProgress ∈ (ledger s).lane) : l.Keeps (ledger (beginAppend data o s)) := by
  have hchecks : l.Settles 0 (ledger (appendChecks (InProgress.take data o) s)) := by
    rw [ledger_appendChecks]
    exact h.andThen (Ledger.settles_recorded _ fun hb _ => ho hb)
  exact hchecks.keeps.trans (settleRefusal_keeps _)

theorem takeSystem_keeps (q : SysRequest) : (ledger s).Keeps (ledger (takeSystem q s)) := by
  refine beginAppend_keeps _ _ _ ?_ nofun
  exact { Ledger.Settles.refl (ledger s) with system := fun hs => by simp [ledger] at hs ⊢; omega }

theorem takeFirstWaiting_states (l : List HostPlace) : (takeFirstWaiting l).length = l.length ∧
    (.inProgress ∈ l.map (·.state) → .inProgress ∈ (takeFirstWaiting l).map (·.state)) := by
  induction l with
  | nil => simp [takeFirstWaiting]
  | cons p l ih =>
    unfold takeFirstWaiting
    split
    · simp
    · exact ⟨congrArg (· + 1) ih.1, fun hm => List.mem_cons.2 ((List.mem_cons.1 hm).imp id ih.2)⟩

theorem inProgress_mem_takeFirstWaiting {l : List HostPlace} {p : HostPlace}
    (h : l.find? (fun p => p.state == .waiting) = some p) : .inProgress ∈ (takeFirstWaiting l).map (·.state) := by
  induction l with
  | nil => simp at h
  | cons q l ih =>
    unfold takeFirstWaiting
    split
    · exact List.mem_cons_self
    next hq => 
      rw [List.find?_cons_of_neg (by simpa using hq)] at h
      exact List.mem_cons_of_mem _ (ih h)

theorem takeHost_keeps : (ledger s).Keeps (ledger (takeHost s)) := by
  unfold takeHost
  split
  next p hp =>
    obtain ⟨hlen, hmem⟩ := takeFirstWaiting_states s.au.hostLane
    refine beginAppend_keeps _ _ _ ?_ fun _ => inProgress_mem_takeFirstWaiting hp
    exact { Ledger.Settles.refl (ledger s) with
      live := by simp [ledger, Ledger.live, Ledger.held, hlen]
      lane := by simp [ledger, hlen]
      placed := fun hpl hr => hmem (hpl hr) }
  next => exact .refl _

theorem takeCapture_keeps (i : Fin 2) (k : Nat) : (ledger s).Keeps (ledger (takeCapture i k s)) := by
  unfold takeCapture
  split
  next b _ => exact beginAppend_keeps _ _ _ (.of_eq rfl) nofun
  next => exact .refl _

theorem arbiterChoice_keeps : (ledger s).Keeps (ledger (arbiterChoice s)) := by
  unfold arbiterChoice
  split
  · exact .refl _
  · split
    · exact takeSystem_keeps s _
    · (repeat' split)
      · exact takeHost_keeps s
      · exact .refl _
      · exact takeHost_keeps s
      · exact takeCapture_keeps s _ _

/-! ## The next segment (R54, R55) -/

theorem nextSegmentRequest_keeps {r : InProgress} (hr : s.au.record = some r) :
    (ledger s).Keeps (ledger (nextSegmentRequest r s)) := by
  have hwaits (u : State) (hu : ledger u = ledger s) :
      (ledger s).Keeps (ledger (setRecord (some { r with phase := .waitingClear }) u)) := by
    rw [ledger_setRecord, hu]
    exact (Ledger.Settles.of_eq (ledger_same_origin s hr rfl)).keeps
  unfold nextSegmentRequest
  dsimp only
  split
  · rw [ledger_openAndWrite]
    exact (Ledger.Settles.of_eq (ledger_same_origin s hr rfl)).keeps
  · exact hwaits s rfl
  · exact hwaits _ (ledger_prepare s)
  · split
    · exact refuse_keeps s _ hr rfl
    · split
      · exact refuse_keeps s _ hr rfl
      · exact hwaits _ (ledger_prepare s)
  · exact .refl _

theorem exec_nextSegmentRequest_keeps {t : State} (h : exec .nextSegmentRequest s = .next t) :
    (ledger s).Keeps (ledger t) := by
  obtain rfl := Host.Outcome.next.inj h
  split
  next r hr =>
    split
    · exact nextSegmentRequest_keeps s hr
    all_goals exact .refl _
  next => exact .refl _

theorem ledger_preparationCleared : ledger (preparationCleared s) = ledger s := by
  unfold preparationCleared
  split
  next r hr =>
    split
    · rw [ledger_openAndWrite]
      exact ledger_same_origin s hr rfl
    all_goals rfl
  next => rfl

theorem exec_clearingEnd_settles {t : State} (h : exec .clearingEnd s = .next t) : (ledger s).Settles 0 (ledger t) := by
  obtain rfl := Host.Outcome.next.inj h
  split
  next => exact .refl _
  next g _ =>
    rw [← ledger_prepared s g]
    dsimp only
    split
    · exact .of_eq (ledger_coldCleared _ g)
    · split
      · exact formatCleared_settles _ g
      all_goals exact .of_eq (ledger_preparationCleared _)

end

end Sys2Proof.Machine
end

section
/-! SUPPORT. The supply rows, START, recovery and cold initialisation: what is lost leaves nothing waiting, held or answered
(R176 to R197). -/

namespace Sys2Proof.Machine

/-! ## On the ledger alone -/

namespace Ledger

/-- Nothing outstanding, waiting, held or answered, with the HP OFFLINE. -/
def cleared (v : Supply) : Ledger :=
  { supply := v, offline := true, outstanding := 0, tags := [], commands := 0, responses := 0, system := 0, lane := [],
    hostRecord := false, js := false, cu := false, tb := false, wu := false, cp := false, parked := 0 }

theorem keeps_cleared (l : Ledger) {v : Supply} (h : v ≠ .run) : l.Keeps (cleared v) :=
  ⟨⟨fun _ => by simp [hostBounded, cleared], fun _ => by simp [laneBounded, cleared]⟩, fun _ => ⟨by simp [cleared, h], fun hr => absurd hr h, fun _ => ⟨rfl, rfl⟩,
    fun _ _ => rfl, nofun⟩⟩

/-- A supply state in which nothing waits or is held goes to another such state. -/
theorem moves_keeps {l : Ledger} {v : Supply} (h : l.supply ≠ .run) (hh : l.supply ≠ .holdup) (hv : v ≠ .run) :
    l.Keeps { l with supply := v } :=
  ⟨⟨id, id⟩, fun hl => ⟨by simp [hv, hl.online, h], fun hr => absurd hr hv, fun _ => hl.emptied h, fun _ _ => hl.idle h hh,
    hl.placed⟩⟩

end Ledger

section

variable (s : State)

/-! ## Abrupt stops and the supply rows (R178, R179, R185, R186) -/

theorem ledger_mainLost : ledger (mainLost s) = .cleared s.pc.supply := rfl

theorem stopMain_supply (cut : Cut) : (stopMain cut s).pc.supply = s.pc.supply := by
  unfold stopMain
  split <;> simp [mainLost]

theorem ledger_stopMain (cut : Cut) : ledger (stopMain cut s) = .cleared s.pc.supply := by
  rw [← stopMain_supply s cut]
  rfl

theorem exec_resetAssert_keeps {cut : Cut} {t : State} (h : exec (.resetAssert cut) s = .next t) :
    (ledger s).Keeps (ledger t) := by
  obtain rfl := Host.Outcome.next.inj h
  dsimp only
  split
  · exact Ledger.keeps_cleared (ledger s) (v := .reset) (by simp)
  · exact .refl _

theorem exec_resetRelease_keeps {t : State} (h : exec .resetRelease s = .next t) : (ledger s).Keeps (ledger t) := by
  obtain rfl := Host.Outcome.next.inj h
  change (ledger s).Keeps { ledger s with supply := if s.pc.supply = .reset then .start else s.pc.supply }
  split
  next hr => exact Ledger.moves_keeps (by simp [ledger, hr]) (by simp [ledger, hr]) (by simp)
  next => exact .refl _

theorem ledger_enterOff : ledger (enterOff s) = { ledger s with supply := .off, tb := false } := rfl

/-- A lost main domain is as lost without VMAIN. -/
theorem enterUnpowered_keeps {s : State} {v : Supply} (hs : ledger s = .cleared v) (l : Ledger) :
    l.Keeps (ledger (enterUnpowered s)) := by
  unfold enterUnpowered
  split
  · change l.Keeps { ledger s with supply := .retain }
    exact hs ▸ l.keeps_cleared (v := .retain) (by simp)
  · rw [ledger_enterOff, hs]
    exact l.keeps_cleared (v := .off) (by simp)

theorem exec_vmainLost_keeps {cut : Cut} {t : State} (h : exec (.vmainLost cut) s = .next t) :
    (ledger s).Keeps (ledger t) := by
  obtain rfl := Host.Outcome.next.inj h
  split
  · exact enterUnpowered_keeps (ledger_stopMain _ cut) _
  · exact .refl _

theorem exec_vbatRise_keeps {t : State} (h : exec .vbatRise s = .next t) : (ledger s).Keeps (ledger t) := by
  obtain rfl := Host.Outcome.next.inj h
  change (ledger s).Keeps { ledger s with supply := if s.pc.supply = .off then .retain else s.pc.supply }
  split
  next hoff => exact Ledger.moves_keeps (by simp [ledger, hoff]) (by simp [ledger, hoff]) (by simp)
  next => exact .refl _

/-- Without VMAIN nothing runs: the supply state is neither RUN nor HOLDUP. -/
theorem supply_of_no_vmain {s : State} (hon : onlineLaw s) (hv : s.pc.vmain = false) :
    s.pc.supply ≠ .run ∧ s.pc.supply ≠ .holdup := by
  have hoff := mt hon.2 (by simp [hv])
  constructor <;> intro he <;> simp [he] at hoff

/-- VMAIN rises: bounded without more, and sound where VMAIN is present in every powered state. -/
theorem exec_vmainRise_keeps {t : State} (h : exec .vmainRise s = .next t) :
    (ledger s).KeepsBounds (ledger t) ∧ (onlineLaw s → (ledger s).sound → (ledger t).sound) := by
  obtain rfl := Host.Outcome.next.inj h
  split
  next => exact ⟨.refl _, fun _ => id⟩
  next hv =>
    refine ⟨⟨id, id⟩, fun hon => ?_⟩
    obtain ⟨hrun, hhold⟩ := supply_of_no_vmain hon (Bool.not_eq_true _ ▸ hv)
    have hv : (if s.pc.resetLow then Supply.reset else .start) ≠ .run := by split <;> simp
    exact (Ledger.moves_keeps (l := ledger s) hrun hhold hv).sound

/-- VBAT falls, in the same way. -/
theorem exec_vbatFall_keeps {t : State} (h : exec .vbatFall s = .next t) :
    (ledger s).KeepsBounds (ledger t) ∧ (onlineLaw s → (ledger s).sound → (ledger t).sound) := by
  obtain rfl := Host.Outcome.next.inj h
  split
  case isFalse => exact ⟨.refl _, fun _ => id⟩
  case isTrue =>
    dsimp only
    split
    case isTrue => exact ⟨.refl _, fun _ => id⟩
    case isFalse hv =>
      refine ⟨⟨id, id⟩, fun hon => ?_⟩
      obtain ⟨hrun, hhold⟩ := supply_of_no_vmain hon (Bool.not_eq_true _ ▸ hv)
      have hfreed : (ledger s).Settles 0 { ledger s with tb := false } :=
        { Ledger.Settles.refl (ledger s) with live := by simp [Ledger.live, Ledger.held] }
      exact (hfreed.keeps.trans (Ledger.moves_keeps (v := .off) hrun hhold (by simp))).sound

/-! ## START, recovery, cold initialisation (R180, R188 to R197) -/

theorem exec_retentionLatchExamine_keeps {t : State} (h : exec .retentionLatchExamine s = .next t) :
    (ledger s).Keeps (ledger t) := by
  obtain rfl := Host.Outcome.next.inj h
  have hcold (hst : s.pc.supply = .start) : (ledger s).Keeps { ledger s with supply := .coldInit, tb := false, cp := false } :=
    (Ledger.moves_keeps (l := ledger s) (v := .coldInit) (by simp [ledger, hst]) (by simp [ledger, hst])
      (by simp)).trans (Ledger.Settles.keeps (k := 0)
        { Ledger.Settles.refl _ with live := by simp [Ledger.live, Ledger.held]; omega })
  split
  case isFalse => exact .refl _
  case isTrue hstart =>
    split
    · exact hcold hstart.1
    · unfold beginRecovery
      split
      · exact Ledger.moves_keeps (v := .recover) (by simp [ledger, hstart]) (by simp [ledger, hstart]) (by simp)
      · exact hcold hstart.1

/-- A main domain that has taken its values after a restart holds nothing. -/
def Ledger.restarted (l : Ledger) : Ledger :=
  { l with system := 0, lane := [], hostRecord := false, js := false, cu := false, tb := false, wu := false, cp := false,
           parked := 0 }

theorem Ledger.restarted_settles (l : Ledger) : l.Settles 0 l.restarted :=
  { Ledger.Settles.refl l with
    live := by simp [Ledger.live, Ledger.held, Ledger.restarted]
    system := fun _ => Nat.zero_le _
    lane := fun _ => Nat.zero_le _
    placed := fun _ => nofun }

theorem ledger_ite_requestCopy (p : Prop) [Decidable p] : ledger (if p then requestCopy s else s) = ledger s := by
  split
  · exact ledger_requestCopy s
  · rfl

theorem recover_settles : (ledger s).Settles 0 (ledger (recover s)) := by
  unfold recover
  dsimp only
  refine Ledger.Settles.andThen ?_ (requestSystem_settles _ _)
  rw [ledger_prepare, ledger_ite_requestCopy]
  exact (ledger s).restarted_settles

theorem exec_recoveryScanEnd_settles {t : State} (h : exec .recoveryScanEnd s = .next t) :
    (ledger s).Settles 0 (ledger t) := by
  obtain rfl := Host.Outcome.next.inj h
  split
  · exact recover_settles s
  · exact .refl _

theorem coldStart_settles : (ledger s).Settles 0 (ledger (coldStart s)) := by
  have hheld : (ledger s).Settles 0 { (ledger s).restarted with js := (ledger s).js } :=
    { (ledger s).restarted_settles with live := by simp [Ledger.live, Ledger.held, Ledger.restarted]; omega }
  unfold coldStart
  dsimp only
  refine Ledger.Settles.andThen ?_ (requestSystem_settles _ _)
  rw [ledger_prepare]
  exact hheld

/-! ## Hold-up and the end of a control block write (R37, R181, R184, R197) -/

theorem ledger_formatReached (made : Nat) : ledger (formatReached made s) = ledger s := by
  unfold formatReached
  split
  · split
    · rfl
    · rw [ledger_thirdPhase, ledger_prepared]
  · rfl

theorem exec_holdup_keeps {change : PfiChange} {t : State} (h : exec (.holdup change) s = .next t) :
    (ledger s).Keeps (ledger t) := by
  obtain rfl := Host.Outcome.next.inj h
  cases change with
  | falls made =>
    change (ledger s).Keeps (ledger (pfiFalls made s))
    unfold pfiFalls
    split
    · have hreached : ledger (formatReached made (setPfi true s)) = ledger s := ledger_formatReached _ made
      exact hreached ▸ enterHoldup_keeps _
    · exact .refl _
  | rises => exact .refl _

theorem exec_auEnded_settles {z : Nat} {t : State} (h : exec (.auEnded z) s = .next t) :
    (ledger s).Settles 0 (ledger t) := by
  obtain rfl := Host.Outcome.next.inj h
  split
  · dsimp only
    rw [ledger_requestCopy]
    exact .of_eq (ledger_abandonClearing s z)
  · exact .refl _

theorem holdupEnd_keeps (l : Ledger) : l.Keeps (ledger (holdupEnd s)) := by
  unfold holdupEnd
  split
  · exact l.keeps_cleared (v := .start) (by simp)
  · exact enterUnpowered_keeps (ledger_mainLost s) l

theorem exec_controlBlockWriteEnd_keeps {t : State} (h : exec .controlBlockWriteEnd s = .next t) :
    (ledger s).Keeps (ledger t) := by
  obtain rfl := Host.Outcome.next.inj h
  split
  next => exact .refl _
  next w _ =>
    rw [← ledger_copyWritten s w]
    dsimp only
    split
    · split
      · exact .refl _
      · exact (coldStart_settles _).keeps
    · split
      · exact holdupEnd_keeps _ _
      · rw [ledger_nextCopy]
        exact (copyCompletes_settles _).keeps

end

end Sys2Proof.Machine
end

section
/-! SUPPORT. Every command keeps the bounds of the host queues and of the lanes, and the count of commands. -/

namespace Sys2Proof.Machine

section

variable {s t : State}

/-! ## The commands, unit by unit -/

theorem exec_jsCommand_settles {c : Instr} (hc : c = .format ∨ c = .setPolicy ∨ c = .journalStatus ∨ c = .segmentInfo)
    (h : exec c s = .next t) : (ledger s).Settles 0 (ledger t) := by
  obtain rfl | rfl | rfl | rfl := hc <;> obtain rfl := Host.Outcome.next.inj h
  · exact withJs_settles s _ _ fun hs e => format_settles s e hs
  · exact withJs_settles s _ _ fun hs e => setPolicy_settles s e hs
  · exact withJs_settles s _ _ fun hs e => journalStatus_settles s e hs
  · exact withJs_settles s _ _ fun hs e => segmentInfo_settles s e hs

/-- The commands of the CU. -/
def cuCommands : List Instr := [.openCursor, .seek, .seekTime, .fetch, .count, .cancel, .close, .cursorStatus]

theorem exec_cuCommand_settles {c : Instr} (hc : c ∈ cuCommands) (h : exec c s = .next t) :
    (ledger s).Settles 0 (ledger t) := by
  simp only [cuCommands, List.mem_cons, List.not_mem_nil, or_false] at hc
  obtain rfl | rfl | rfl | rfl | rfl | rfl | rfl | rfl := hc <;> obtain rfl := Host.Outcome.next.inj h
  · exact withCu_settles _ _ fun hs e => openCursor_settles hs e
  · refine withCu_settles _ _ fun hs e => ?_
    split
    · exact .refl _
    · exact withCursor_settles hs _ _ e fun c => seek_settles hs c e
  · refine withCu_settles _ _ fun hs e => ?_
    split
    · exact withCursor_settles hs _ _ e fun c => seekTime_settles hs c e
    · exact .refl _
  · exact withCu_settles _ _ fun hs e => withCursor_settles hs _ _ e fun c => beginScan_settles hs _ c e
  · exact withCu_settles _ _ fun hs e => withCursor_settles hs _ _ e fun c => beginScan_settles hs _ c e
  · exact withCu_settles _ _ fun hs e => withCursor_settles hs _ _ e fun c => cancel_settles hs c e
  · exact withCu_settles _ _ fun hs e => withCursor_settles hs _ _ e fun c => close_settles hs c e
  · exact withCu_settles _ _ fun hs e => withCursor_settles hs _ _ e fun c => cursorStatus_settles hs c e

theorem exec_scanStep_settles (h : exec .scanStep s = .next t) : (ledger s).Settles 0 (ledger t) := by
  obtain rfl := Host.Outcome.next.inj h
  refine withScan_settles _ fun hs e sc => ?_
  split
  · exact stepBackward_settles hs e sc
  · exact stepForward_settles hs e sc

theorem exec_tailTest_settles (h : exec .tailTest s = .next t) : (ledger s).Settles 0 (ledger t) := by
  obtain rfl := Host.Outcome.next.inj h
  refine withScan_settles _ fun hs e sc => ?_
  split
  · exact .refl _
  · exact tailTest_settles hs e sc

theorem exec_tbCommand_settles {c : Instr} (hc : c = .readTime ∨ c = .setTime ∨ c = .adjustTime)
    (h : exec c s = .next t) : (ledger s).Settles 0 (ledger t) := by
  obtain rfl | rfl | rfl := hc <;> obtain rfl := Host.Outcome.next.inj h
  · exact withTb_settles s _ _ fun hs e => readTime_settles s e hs
  · exact withTb_settles s _ _ fun hs e => setTime_settles s e hs
  · exact withTb_settles s _ _ fun hs e => adjustTime_settles s e hs

theorem exec_wuCommand_settles {c : Instr} (hc : c = .watchSet ∨ c = .watchRead ∨ c = .watchOff)
    (h : exec c s = .next t) : (ledger s).Settles 0 (ledger t) := by
  obtain rfl | rfl | rfl := hc <;> obtain rfl := Host.Outcome.next.inj h
  · exact withWu_settles s _ _ fun hs e => watchSet_settles s e hs
  · exact withWu_settles s _ _ fun hs e => watchRead_settles s e hs
  · exact withWu_settles s _ _ fun hs e => watchOff_settles s e hs

theorem exec_cpCommand_settles {c : Instr} (hc : c = .captureSet ∨ c = .nodeSet ∨ c = .nodeRead)
    (h : exec c s = .next t) : (ledger s).Settles 0 (ledger t) := by
  obtain rfl | rfl | rfl := hc <;> obtain rfl := Host.Outcome.next.inj h
  · exact withCp_settles s _ _ fun hs e => captureSet_settles s e hs
  · exact withCp_settles s _ _ fun hs e => nodeSet_settles s e hs
  · exact withCp_settles s _ _ fun hs e => nodeRead_settles s e hs

/-- The happenings of the TB and the WU but for their commands. -/
theorem exec_tick_settles {c : Instr}
    (hc : c = .secondBoundary ∨ c = .decisionPoint ∨ c = .boundaryEvent ∨ c = .wuCommitNotice)
    (h : exec c s = .next t) : (ledger s).Settles 0 (ledger t) := by
  obtain rfl | rfl | rfl | rfl := hc <;> obtain rfl := Host.Outcome.next.inj h <;> split
  · exact oscillatorTick_settles s
  · exact .refl _
  · exact oscillatorTick_settles s
  · exact .refl _
  · exact .refl _
  · exact watchBoundary_settles (s.onWu (fun u => { u with boundaries := u.boundaries - 1 }))
  · exact .refl _
  · exact .of_eq (ledger_watchCommit _ _)

/-- The happenings of the CP but for its commands and the AU's refusal. -/
theorem ledger_exec_cp {c : Instr} (hc : (∃ b g, c = .characterReceived b g) ∨ c = .gapTimeout ∨ c = .idleTimeElapsed ∨
    (∃ i, c = .acknowledgeWindowEnd i) ∨ c = .ackFrameStart ∨ c = .ackFrameEnd ∨ c = .cpCommitNotice)
    (h : exec c s = .next t) : ledger t = ledger s := by
  obtain ⟨b, g, rfl⟩ | rfl | rfl | ⟨i, rfl⟩ | rfl | rfl | rfl := hc <;> obtain rfl := Host.Outcome.next.inj h
  · exact ledger_receive s b g
  · split
    · exact ledger_framingFailure s
    · rfl
  · split
    · exact ledger_onCp s (by simp)
    · rfl
  · split
    · split
      · exact ledger_onCp s (by simp)
      · rfl
    · rfl
  · (repeat' split) <;> rfl
  · split
    · split
      · exact (ledger_afterFrame _).trans (ledger_onCp s (by simp))
      · rfl
    · rfl
  · split
    · rfl
    · dsimp only
      split
      · rfl
      · exact (ledger_onCp _ (by simp)).trans (ledger_onCp s rfl)

/-- The transactions that only choose a port or end without an effect. -/
theorem ledger_exec_bus {c : Instr} (hc : c = .statusByte ∨ c = .rsp ∨ (∃ n o, c = .win n o) ∨ c = .sts ∨
    ∃ p, c = .unknownPort p) (h : exec c s = .next t) : ledger t = ledger s := by
  obtain rfl | rfl | ⟨n, o, rfl⟩ | rfl | ⟨p, rfl⟩ := hc <;> obtain rfl := Host.Outcome.next.inj h
  · exact ledger_onBus s (ledger_closeTx s)
  · exact ledger_onBus s (ledger_openPort s _)
  · exact ledger_onBus s (ledger_openPort s _)
  · exact ledger_onBus s (ledger_openPort s _)
  · split
    · rfl
    · exact ledger_onBus s (ledger_openPort s _)

/-- A command keeps the bounds and the count, but that VMAIN_RISE and VBAT_FALL keep the count only where nothing runs without
VMAIN. -/
theorem exec_keeps {c : Instr} (h : exec c s = .next t) :
    (ledger s).KeepsBounds (ledger t) ∧ (onlineLaw s → (ledger s).sound → (ledger t).sound) := by
  have hkeeps (hk : (ledger s).Keeps (ledger t)) :
      (ledger s).KeepsBounds (ledger t) ∧ (onlineLaw s → (ledger s).sound → (ledger t).sound) :=
    ⟨hk.toKeepsBounds, fun _ => hk.sound⟩
  cases c with
  | vmainRise => exact exec_vmainRise_keeps s h
  | vbatFall => exact exec_vbatFall_keeps s h
  | format | setPolicy | journalStatus | segmentInfo => exact hkeeps (exec_jsCommand_settles (by simp) h).keeps
  | openCursor | seek | seekTime | fetch | count | cancel | close | cursorStatus =>
    exact hkeeps (exec_cuCommand_settles (by simp [cuCommands]) h).keeps
  | readTime | setTime | adjustTime => exact hkeeps (exec_tbCommand_settles (by simp) h).keeps
  | watchSet | watchRead | watchOff => exact hkeeps (exec_wuCommand_settles (by simp) h).keeps
  | captureSet | nodeSet | nodeRead => exact hkeeps (exec_cpCommand_settles (by simp) h).keeps
  | secondBoundary | decisionPoint | boundaryEvent | wuCommitNotice => exact hkeeps (exec_tick_settles (by simp) h).keeps
  | characterReceived | gapTimeout | idleTimeElapsed | acknowledgeWindowEnd | ackFrameStart | ackFrameEnd
  | cpCommitNotice => exact hkeeps (Ledger.Settles.of_eq (ledger_exec_cp (by simp) h)).keeps
  | statusByte | rsp | win | sts | unknownPort =>
    exact hkeeps (Ledger.Settles.of_eq (ledger_exec_bus (by simp) h)).keeps
  | append => exact hkeeps (exec_append_settles s h).keeps
  | dispatch => exact hkeeps (exec_dispatch_settles s h).keeps
  | cuCommitNotice => exact hkeeps (exec_cuCommitNotice_settles s h).keeps
  | reclaimNotice => exact hkeeps (exec_reclaimNotice_settles s h).keeps
  | followTimeout => exact hkeeps (exec_followTimeout_settles s h).keeps
  | scanStep => exact hkeeps (exec_scanStep_settles h).keeps
  | tailTest => exact hkeeps (exec_tailTest_settles h).keeps
  | holdFloorReport => exact hkeeps (exec_holdFloorReport_settles s h).keeps
  | auStopped => exact hkeeps (exec_auStopped_settles s h).keeps
  | clearingEnd => exact hkeeps (exec_clearingEnd_settles s h).keeps
  | recoveryScanEnd => exact hkeeps (exec_recoveryScanEnd_settles s h).keeps
  | auEnded => exact hkeeps (exec_auEnded_settles s h).keeps
  | cmd bytes =>
    obtain rfl := Host.Outcome.next.inj h
    exact hkeeps (finish_keeps s .cmd bytes fun u => cmd_keeps u bytes)
  | ack bytes =>
    obtain rfl := Host.Outcome.next.inj h
    exact hkeeps (finish_keeps s .ack bytes fun u => (ack_settles u bytes).keeps)
  | mask bytes =>
    obtain rfl := Host.Outcome.next.inj h
    exact hkeeps (finish_keeps s .mask bytes fun u => (setMask_settles u bytes).keeps)
  | rspPop => exact hkeeps (exec_rspPop_keeps s h)
  | winEnd =>
    obtain rfl := Host.Outcome.next.inj h
    exact hkeeps (rise_keeps s id (.refl _))
  | arbiterChoice =>
    obtain rfl := Host.Outcome.next.inj h
    exact hkeeps (arbiterChoice_keeps s)
  | nextSegmentRequest => exact hkeeps (exec_nextSegmentRequest_keeps s h)
  | writeStepEnd => exact hkeeps (exec_writeStepEnd_keeps s h)
  | refusalNotice => exact hkeeps (exec_refusalNotice_keeps s h)
  | controlBlockWriteEnd => exact hkeeps (exec_controlBlockWriteEnd_keeps s h)
  | holdup => exact hkeeps (exec_holdup_keeps s h)
  | resetAssert => exact hkeeps (exec_resetAssert_keeps s h)
  | resetRelease => exact hkeeps (exec_resetRelease_keeps s h)
  | vmainLost => exact hkeeps (exec_vmainLost_keeps s h)
  | vbatRise => exact hkeeps (exec_vbatRise_keeps s h)
  | retentionLatchExamine => exact hkeeps (exec_retentionLatchExamine_keeps s h)

/-- So does a step. -/
theorem step_keeps (h : step s = .next t) :
    (ledger s).KeepsBounds (ledger t) ∧ (onlineLaw s → (ledger s).sound → (ledger t).sound) := by
  unfold step at h
  split at h
  · obtain rfl := Host.Outcome.next.inj h
    have hk := (oscillatorTick_settles s).keeps
    exact ⟨hk.toKeepsBounds, fun _ => hk.sound⟩
  next c rest _ => exact exec_keeps (s := { s with pending := rest }) h

end

/-! ## The statement -/

/-- Settles O6: the bounds and the count are laws of the ledger, and every step keeps them; the count with the bound of the
outstanding commands bounds the queues. -/
theorem queueLawsKept : Obligations.QueueLawsKept := by
  unfold Obligations.QueueLawsKept
  refine ⟨fun s t ⟨hhost, hlane⟩ h => ?_, fun s t hon hhost hlaw h => ?_⟩
  · obtain ⟨hkept, -⟩ := step_keeps h
    exact ⟨hkept.host hhost, (laneBounded_iff t).1 (hkept.lanes ((laneBounded_iff s).2 hlane))⟩
  · obtain ⟨hkept, hsound⟩ := step_keeps h
    have hsound' := hsound hon ((sound_iff s).2 ⟨hon.1, hlaw⟩)
    refine ⟨((sound_iff t).1 hsound').2, ?_⟩
    by_cases hrun : t.pc.supply = .run
    · obtain ⟨h8, -, -⟩ := hkept.host hhost
      have hcount := hsound'.counted hrun
      simp only [ledger, Ledger.live] at hcount h8
      omega
    · obtain ⟨hc, hr⟩ := hsound'.emptied hrun
      simp only [ledger] at hc hr
      omega

end Sys2Proof.Machine
end

section
/-! SUPPORT. Dispatch, entry by entry: the unit of each opcode, and what DISPATCH and APPEND do with the head entry (R47, R164,
R165). -/

namespace Sys2Proof.Machine

/-! ## The units of the opcodes (R164, R165) -/

/-- The first and the last opcode of a unit. -/
def CmdUnit.opcodes : CmdUnit → Nat × Nat
  | .au => (0x11, 0x11)
  | .js => (0x20, 0x23)
  | .cu => (0x30, 0x36)
  | .tb => (0x40, 0x42)
  | .wu => (0x50, 0x52)
  | .cp => (0x60, 0x62)

theorem unitOf_eq_some_iff {op : Byte} {u : CmdUnit} :
    unitOf op = some u ↔ u.opcodes.1 ≤ op.toNat ∧ op.toNat ≤ u.opcodes.2 := by
  unfold unitOf
  simp only [Bool.and_eq_true, decide_eq_true_eq]
  split_ifs <;> cases u <;> simp only [CmdUnit.opcodes, Option.some.injEq, reduceCtorEq, true_iff, false_iff] <;> omega

theorem unitOf_eq_none_iff {op : Byte} :
    unitOf op = none ↔ ∀ u : CmdUnit, ¬ (u.opcodes.1 ≤ op.toNat ∧ op.toNat ≤ u.opcodes.2) := by
  simp only [← unitOf_eq_some_iff, Option.eq_none_iff_forall_ne_some, ne_eq]

/-! ## Dispatch -/

section

variable {s : State} {e : Entry} {rest : List Entry} (hq : s.hp.commands = e :: rest)

include hq

theorem exec_dispatch_of_unknown (hu : unitOf e.opcode = none) : exec .dispatch s =
    .next (answer e .unknownCommand [] (s.onHp (fun h => { h with commands := rest }))) := by
  change execDispatch s = _
  unfold execDispatch
  rw [hq]
  simp only [hu]

theorem exec_dispatch_of_unit {u : CmdUnit} (hu : unitOf e.opcode = some u) : exec .dispatch s =
    .next (if unitFree u s then placeIn u e (s.onHp (fun h => { h with commands := rest })) else s) := by
  change execDispatch s = _
  unfold execDispatch
  rw [hq]
  simp only [hu]

theorem exec_append_of_append (hop : e.opcode = appendOpcode) : exec .append s =
    .next (if laneFree s.au then takeAppend e (s.onHp (fun h => { h with commands := rest })) else s) := by
  change execAppend s = _
  unfold execAppend
  rw [hq]
  simp only [hop, true_and]

theorem exec_append_of_other (hop : e.opcode ≠ appendOpcode) : exec .append s = .next s := by
  change execAppend s = _
  unfold execAppend
  rw [hq]
  simp only [hop, false_and, if_false]

end

/-- The tests of an APPEND in their order (R47). -/
theorem takeAppend_eq (e : Entry) (s : State) : takeAppend e s =
    if 232 < e.payload.length ∨ 15 < e.param 0 then answer e .badParam [] s
    else if 12 ≤ e.param 0 then answer e .badClass [] s
    else s.onAu (fun a => { a with hostLane := a.hostLane ++ [{ entry := e, state := .waiting }] }) := by
  unfold takeAppend appendTest
  by_cases hlen : 232 < e.payload.length
  · simp only [hlen, true_or, if_true]
  · by_cases hbig : 15 < e.param 0
    · simp only [hlen, hbig, or_true, if_true, if_false]
    · simp only [hlen, hbig, or_self, if_false]
      by_cases hhigh : 12 ≤ e.param 0
      · simp only [hhigh, if_true]
      · simp only [hhigh, if_false]

/-! ## The statement -/

/-- Settles O50: the opcode decides the unit, and the unit's free slot or place decides whether the head entry moves. -/
theorem dispatchHandsHeadToUnit : Obligations.DispatchHandsHeadToUnit := by
  unfold Obligations.DispatchHandsHeadToUnit
  intro s e rest hq
  have hopcode : e.opcode.toNat = 0x11 ↔ e.opcode = appendOpcode := BitVec.toNat_inj (y := appendOpcode)
  have hslot (u : CmdUnit) (h : u.opcodes.1 ≤ e.opcode.toNat) (h' : e.opcode.toNat ≤ u.opcodes.2) :=
    exec_dispatch_of_unit hq (unitOf_eq_some_iff.2 ⟨h, h'⟩)
  refine ⟨fun h => ?_, fun h => ?_, fun h => exec_append_of_other hq (mt hopcode.2 h), fun h h' => ?_, fun h h' => ?_,
    fun h h' => ?_, fun h h' => ?_, fun h h' => ?_⟩
  · refine exec_dispatch_of_unknown hq (unitOf_eq_none_iff.2 fun u => ?_)
    simp only [List.mem_cons, List.not_mem_nil, or_false, not_or] at h
    cases u <;> simp only [CmdUnit.opcodes] <;> omega
  · have hfree : unitFree .au s = true ↔ ¬ 2 ≤ s.au.hostLane.length := by simp [unitFree, laneFree]
    have hfull : laneFree s.au = true ↔ ¬ 2 ≤ s.au.hostLane.length := hfree
    rw [hslot .au (by simp [CmdUnit.opcodes, h]) (by simp [CmdUnit.opcodes, h]), exec_append_of_append hq (hopcode.1 h)]
    simp only [hfree, hfull, placeIn, takeAppend_eq, ite_not]
    exact ⟨rfl, rfl⟩
  · rw [hslot .js h h']
    simp only [unitFree, Option.isNone_iff_eq_none]
    rfl
  · rw [hslot .cu h h']
    simp only [unitFree, Option.isNone_iff_eq_none]
    rfl
  · rw [hslot .tb h h']
    simp only [unitFree, Option.isNone_iff_eq_none]
    rfl
  · rw [hslot .wu h h']
    simp only [unitFree, Option.isNone_iff_eq_none]
    rfl
  · rw [hslot .cp h h']
    simp only [unitFree, Option.isNone_iff_eq_none]
    rfl

end Sys2Proof.Machine
end

section
/-! SUPPORT. The append of a taken record: what it is for a record that fits and for one that does not, and which bytes it
writes (R53, R57). -/

namespace Sys2Proof.Machine

/-! ## Bytes outside the writes -/

/-- A byte put elsewhere leaves a byte as it was, in any memory. -/
theorem Memory.read_put_of_ne (m : Memory) {x y : Nat} (v : Byte) (hne : x ≠ y) : (m.put x v).read y = m.read y := by
  induction m with
  | nil =>
    unfold Memory.put
    split <;> simp [Memory.read, hne]
  | cons c m ih =>
    obtain ⟨a, b⟩ := c
    unfold Memory.put
    split_ifs with hlt hv hxa hv
    · rfl
    · simp [Memory.read, hne]
    · subst hxa
      simp [Memory.read, hne]
    · subst hxa
      simp [Memory.read, hne]
    · simp only [Memory.read, ih]

/-- Writes elsewhere leave a byte as it was, in any memory. -/
theorem Memory.read_writeCells_of_ne (m : Memory) {y : Nat} (l : List Host.Cell) (hne : ∀ c ∈ l, c.1 ≠ y) :
    (m.writeCells l).read y = m.read y := by
  unfold Memory.writeCells
  induction l generalizing m with
  | nil => rfl
  | cons c l ih =>
    rw [List.foldl_cons, ih _ fun d hd => hne d (List.mem_cons_of_mem _ hd)]
    unfold Memory.write
    split
    · exact Memory.read_put_of_ne m _ (hne c List.mem_cons_self)
    · rfl

section

variable {s : State} {n : Nat}

/-- The writes that begin a record lie in its own bytes and in the segment header (R24, R57). -/
theorem mem_beginCells {r : InProgress} {c : Host.Cell} (h : c ∈ beginCells n r s) :
    (let x := unitAddr s.js.filling s.au.fillPoint
     x ≤ c.1 ∧ c.1 < x + 24 + r.data.payload.length) ∨
    s.js.filling.val * 2048 ≤ c.1 ∧ c.1 < s.js.filling.val * 2048 + 8 := by
  obtain hhead | hrec := List.mem_append.1 h
  · split at hhead
    · rw [headerCells_eq] at hhead
      have := mem_cellsAt hhead
      rw [segHeader_length] at this
      exact .inr this
    · simp at hhead
  · have := mem_cellsAt hrec
    rw [openBytes_length, stampRecord_payload, ← Nat.add_assoc] at this
    exact .inl this

/-! ## The append of a taken record -/

/-- With a number to give, a record that fits begins its write, and any other asks for the next segment (R53). -/
theorem beginAppend_of_value (hn : s.au.nextSeq = .value n) (data : Record) (origin : Origin) :
    beginAppend data origin s =
      if s.au.fillPoint + sizeUnits data.payload.length - 1 ≤ 255 then beginWrite [] [] (InProgress.take data origin) s
      else setRecord (some (InProgress.take data origin)) s := by
  have hw := beginWrite_of_value hn [] [] (InProgress.take data origin)
  unfold beginAppend appendChecks
  simp only [hn]
  change settleRefusal (if s.au.fillPoint + sizeUnits data.payload.length - 1 ≤ 255 then _ else _) = _
  split
  · exact settleRefusal_of_not_refused (r := (InProgress.take data origin).begun [] [] n s) (by rw [hw]) nofun
  · exact settleRefusal_of_not_refused rfl nofun

/-- Outside the bytes of the record `r` at the fill point and outside the segment header, `t` reads as `s` does. -/
def KeepsOutside (s t : State) (r : InProgress) : Prop :=
  let h := s.js.filling.val * 2048
  let x := h + s.au.fillPoint * 8
  ∀ a, ¬ (x ≤ a ∧ a < x + 24 + r.data.payload.length) → ¬ (h ≤ a ∧ a < h + 8) → t.mem.read a = s.mem.read a

/-- The append of a taken record with a number to give leaves it in progress, and writes beside the AU only the record's
place and the segment header. -/
theorem beginAppend_inProgress (hn : s.au.nextSeq = .value n) (data : Record) (origin : Origin) :
    let t := beginAppend data origin s
    ∃ r, t.au.record = some r ∧ r.origin = origin ∧ r.data.payload = data.payload ∧
      t.au.systemLane = s.au.systemLane ∧ t.au.lastServed = s.au.lastServed ∧ t = { s with au := t.au, mem := t.mem } ∧
      KeepsOutside s t r := by
  rw [beginAppend_of_value hn]
  split
  · rw [beginWrite_of_value hn]
    refine ⟨_, rfl, rfl, stampRecord_payload s data, rfl, rfl, rfl, fun a hrec hhead => ?_⟩
    refine Memory.read_writeCells_of_ne _ _ fun c hc hca => ?_
    subst hca
    obtain h | h := mem_beginCells hc
    · refine hrec ?_
      change _ ∧ _ < _ + 24 + (stampRecord s data).payload.length
      rw [stampRecord_payload]
      exact h
    · exact hhead h
  · exact ⟨_, rfl, rfl, rfl, rfl, rfl, rfl, fun _ _ _ => rfl⟩

/-! ## The arbiter's choice (R50) -/

theorem hostWaits_of_find {p : HostPlace} (h : s.au.hostLane.find? (fun p => p.state == .waiting) = some p) :
    hostWaits s.au = true :=
  List.any_eq_true.2 ⟨p, List.mem_of_find?_eq_some h, by simpa using List.find?_some h⟩

theorem not_hostWaits_of_find (h : s.au.hostLane.find? (fun p => p.state == .waiting) = none) : hostWaits s.au = false := by
  simpa [hostWaits] using h

theorem takeHost_of_find {p : HostPlace} (h : s.au.hostLane.find? (fun p => p.state == .waiting) = some p) :
    takeHost s = beginAppend (Record.plain .host (p.entry.param 0) p.entry.payload) (.host p.entry.tag)
      (s.onAu (fun a => { a with hostLane := takeFirstWaiting a.hostLane, lastServed := .host })) := by
  unfold takeHost; rw [h]

theorem arbiterChoice_of_paused (h : s.au.paused = true) : arbiterChoice s = s := by simp [arbiterChoice, h]

theorem arbiterChoice_of_idle (hq : s.au.systemLane = []) (hw : hostWaits s.au = false) (ho : captureOffer s.cp = none) :
    arbiterChoice s = s := by
  simp [arbiterChoice, hq, hw, ho]

/-- The capture lane is served when the host lane does not wait or was served last. -/
theorem arbiterChoice_of_offer {i : Fin 2} {k : Nat} (hp : s.au.paused = false) (hr : s.au.record = none)
    (hq : s.au.systemLane = []) (ho : captureOffer s.cp = some (i, k))
    (ht : hostWaits s.au = false ∨ s.au.lastServed = .host) : arbiterChoice s = takeCapture i k s := by
  obtain hw | hl := ht
  · exact arbiterChoice_of_capture s hp hr hq hw ho
  · simp [arbiterChoice, hp, hr, hq, ho, hl]

end

/-- Settles O24: each case of the arbiter's choice is the append of the record it takes, framed by `beginAppend_inProgress`. -/
theorem arbiterAlternates : Obligations.ArbiterAlternates := by
  unfold Obligations.ArbiterAlternates
  intro s n hrec hseq waits h x kept
  refine ⟨fun hp => ?_, fun hq hw ho => ?_, fun hp => ⟨fun q qs hq => ?_, fun p hq hw ht => ?_, fun i k b hq ho hb ht => ?_⟩⟩
  · rw [exec_arbiterChoice, arbiterChoice_of_paused hp]
  · rw [exec_arbiterChoice, arbiterChoice_of_idle hq (not_hostWaits_of_find hw) ho]
  · obtain ⟨r, hr, horigin, hpay, hlane, hlast, hframe, hkept⟩ := beginAppend_inProgress
      (s := s.onAu (fun a => { a with systemLane := a.systemLane.drop 1 })) hseq
      (Record.plain .system q.kind.cls q.payload) (.system q.kind)
    rw [exec_arbiterChoice, arbiterChoice_of_system s hp hrec hq]
    exact ⟨_, r, rfl, hr, horigin, hpay, hlane.trans (congrArg (List.drop 1) hq), hlast, hframe, hkept⟩
  · obtain ⟨r, hr, horigin, hpay, -, hlast, hframe, hkept⟩ := beginAppend_inProgress
      (s := s.onAu (fun a => { a with hostLane := takeFirstWaiting a.hostLane, lastServed := .host })) hseq
      (Record.plain .host (p.entry.param 0) p.entry.payload) (.host p.entry.tag)
    rw [exec_arbiterChoice, arbiterChoice_of_host s hp hrec hq (hostWaits_of_find hw) ht, takeHost_of_find hw]
    exact ⟨_, r, rfl, hr, horigin, hpay, hlast, hframe, hkept⟩
  · obtain ⟨r, hr, horigin, -, -, hlast, hframe, hkept⟩ := beginAppend_inProgress
      (s := (s.onCp (Cp.onSlot i (Burst.resolve k .inAppend))).onAu (fun a => { a with lastServed := .capture })) hseq
      (captureRecord b (b.records.getD k default)) (.capture i k)
    rw [exec_arbiterChoice, arbiterChoice_of_offer hp hrec hq ho (ht.imp_left not_hostWaits_of_find),
      takeCapture_of_slot s hb]
    refine ⟨_, r, rfl, hr, horigin, hlast, hkept, hframe.trans ?_⟩
    rw [State.onCp, Cp.onSlot_of_some s.cp _ hb]
    rfl

end Sys2Proof.Machine
end

section
/-! SUPPORT. What memory reads once a record that fits has begun its write (R24, R57). -/

namespace Sys2Proof.Machine

section

variable {s : State} {n : Nat}

/-- A record that fits lies in its segment: of at most 232 payload bytes, it ends in or before the last of its units. -/
theorem record_inside {u len : Nat} (hfit : u + sizeUnits len ≤ 256) (g : Seg) :
    g.val * 2048 + u * 8 + (24 + len) ≤ g.val * 2048 + 2048 := by
  change u + (3 + (len + 7) / 8) ≤ 256 at hfit
  omega

/-- The record is written after the header of its segment, so its own bytes are read first. -/
theorem read_beginCells (hwf : s.mem.wf = true) (r : InProgress)
    (hfit : s.au.fillPoint + sizeUnits r.data.payload.length ≤ 256) (a : Nat) :
    let g := s.js.filling
    let x := g.val * 2048 + s.au.fillPoint * 8
    (s.mem.writeCells (beginCells n r s)).read a =
      if x ≤ a ∧ a < x + 24 + r.data.payload.length then ((stampRecord s r.data).openBytes n).getD (a - x) 0
      else if (s.au.fillPoint = 1 ∧ headerFirst s.mem g ≠ n) ∧ g.val * 2048 ≤ a ∧ a < g.val * 2048 + 8 then
        (segHeader .filling n).getD (a - g.val * 2048) 0
      else s.mem.read a := by
  intro g x
  have hlength : ((stampRecord s r.data).openBytes n).length = 24 + r.data.payload.length := by
    rw [openBytes_length, stampRecord_payload]
  have hin : x + ((stampRecord s r.data).openBytes n).length ≤ memorySize := by
    rw [hlength]
    exact (record_inside hfit g).trans (segment_inside g)
  rw [beginCells, Memory.writeCells_append]
  change ((s.mem.writeCells _).writeCells (cellsAt x _)).read a = _
  rw [Memory.read_cellsAt (Memory.wf_writeCells _ hwf) hin, hlength, ← Nat.add_assoc]
  congr 1
  split
  · next hrw => simp only [hrw, true_and, Memory.read_headerCells hwf, g, ne_eq, not_false_eq_true]
  · next hrw => rw [if_neg fun h => hrw h.1]; rfl

end

/-- Settles O25: a record that fits begins its write, which `read_beginCells` reads back. -/
theorem hostRecordWritten : Obligations.HostRecordWritten := by
  unfold Obligations.HostRecordWritten
  intro s e rest n hwf hp hrec hseq hq hlane ht hcls u g len size x bytes rewrite hu hfit hlen
  have hfind : s.au.hostLane.find? (fun p => p.state == .waiting) = some { entry := e, state := .waiting } := by
    rw [hlane]; rfl
  let taken := s.onAu fun a => { a with hostLane := { entry := e, state := .inProgress } :: rest, lastServed := .host }
  let r := InProgress.take (Record.plain .host (e.param 0) e.payload) (.host e.tag)
  have hexec : exec .arbiterChoice s = .next (beginWrite [] [] r taken) := by
    rw [exec_arbiterChoice, arbiterChoice_of_host s hp hrec hq (hostWaits_of_find hfind) ht, takeHost_of_front s hlane,
      beginAppend_of_value (s := taken) hseq, if_pos]
    change u + size - 1 ≤ 255
    omega
  rw [beginWrite_of_value (show taken.au.nextSeq = .value n from hseq)] at hexec
  have hfill : min 256 (u + size) = u + size := by omega
  have hbytes : (stampRecord taken r.data).openBytes n = bytes := by
    have hclass : e.param 0 % 16 = e.param 0 := by omega
    rw [openBytes_eq]
    change [0x3C, _, _, byte (e.param 0 % 16 + 16 * 0 + _), _, _] ++ _ ++ _ ++ _ ++ _ ++ _ ++ _ ++ _ ++ _ = _
    rw [hclass]
    rfl
  refine ⟨_, r.begun [] [] n taken, hexec, rfl, ?_, rfl, rfl, rfl, rfl, rfl, fun a => ?_⟩
  · exact congrArg (fun fill : Nat => { taken.au with
      nextSeq := NextSeq.after n, fillPoint := fill, record := some (r.begun [] [] n taken) }) hfill
  · refine (read_beginCells (s := taken) hwf r hfit a).trans ?_
    rw [hbytes]
    have hrw : rewrite = true ↔ u = 1 ∧ headerFirst s.mem g ≠ n := by simp [rewrite]
    simp only [hrw]
    rfl

end Sys2Proof.Machine
end

section
/-! SUPPORT. The resolution of a record falls on the acknowledges of the burst slots (R144 to R146, R149): what it leaves of
each slot, of the pending queue and of the rest of the CP. -/

namespace Sys2Proof.Machine

theorem getElem_vmod {α : Type} {n : Nat} (v : Vector α n) (i j : Fin n) (f : α → α) :
    (vmod v i f)[j] = if i = j then f v[j] else v[j] := by
  unfold vmod
  simp only [Fin.getElem_fin, Vector.getElem_set, Fin.ext_iff]
  split
  · next h => simp only [h]
  · rfl

/-- A burst whose acknowledge falls due at a resolution: all its records are resolved and it is not due yet. -/
def Burst.fallsDue (b : Burst) : Bool := b.allResolved && b.ack == .notDue

/-- What a resolution leaves of a burst slot: free when all records are resolved and the acknowledge was sent or dropped or
is dropped now, the receiver being DISABLED. -/
def Burst.afterResolution (disabled : Bool) (b : Burst) : Option Burst :=
  if b.allResolved && (b.ack == .sent || b.ack == .dropped || (b.ack == .notDue && disabled)) then none
  else if b.fallsDue then some { b with ack := .due, beatsLeft := none } else some b

/-- The receiver is DISABLED. -/
def Cp.isDisabled (p : Cp) : Bool := p.receiver == .disabled

namespace Cp

variable {p : Cp} {i : Fin 2}

theorem getElem_freeSlot (j : Fin 2) : (p.freeSlot i).slots[j] = if i = j then none else p.slots[j] := getElem_vmod _ _ _ _

theorem getElem_onSlot (f : Burst → Burst) (j : Fin 2) :
    (p.onSlot i f).slots[j] = if i = j then (p.slots[j]).map f else p.slots[j] := getElem_vmod _ _ _ _

theorem isDisabled_iff : p.isDisabled = true ↔ p.receiver = .disabled := beq_iff_eq

/-- An acknowledge dropped on a burst with all its records resolved frees the slot (R144, R152). -/
theorem dropAck_of_allResolved {b : Burst} (hb : p.slots[i] = some b) (h : b.allResolved = true) :
    p.dropAck i = freeSlot i { p.setAck i .dropped with acksDropped := sat16 (p.acksDropped + 1) } := by
  have hslot : (p.setAck i .dropped).slots[i] = some { b with ack := .dropped, beatsLeft := none } := by
    rw [setAck, getElem_onSlot, if_pos rfl, hb]; rfl
  unfold dropAck settleSlot
  dsimp only
  rw [hslot]
  exact if_pos (by simpa [Burst.allResolved] using h)

/-- The four things a resolution can do to a slot that is not free. -/
theorem afterResolution_of_some {b : Burst} (hb : p.slots[i] = some b) : p.afterResolution i =
    if b.allResolved then
      if b.ack = .notDue then p.fallDue i else if b.ack = .due then p else p.freeSlot i
    else p := by
  unfold afterResolution
  rw [hb]
  dsimp only
  cases b.ack <;> rfl

theorem afterResolution_of_none (hb : p.slots[i] = none) : p.afterResolution i = p := by
  unfold afterResolution; rw [hb]

theorem fallDue_of_disabled (h : p.receiver = .disabled) : p.fallDue i = p.dropAck i := if_pos h

theorem fallDue_of_not_disabled (h : p.receiver ≠ .disabled) :
    p.fallDue i = { p.setAck i .due with queue := p.queue ++ [.slot i] } := if_neg h

/-- A resolution leaves its slot as `Burst.afterResolution` says. -/
theorem getElem_afterResolution_self :
    (p.afterResolution i).slots[i] = (p.slots[i]).bind (Burst.afterResolution p.isDisabled) := by
  have hfree (q : Cp) : (q.freeSlot i).slots[i] = none := by rw [getElem_freeSlot, if_pos rfl]
  cases hb : p.slots[i] with
  | none => rw [afterResolution_of_none hb, hb]; rfl
  | some b =>
    rw [afterResolution_of_some hb]
    change _ = Burst.afterResolution p.isDisabled b
    split_ifs with hres hack hdue
    · by_cases hd : p.receiver = .disabled
      · rw [fallDue_of_disabled hd, dropAck_of_allResolved hb hres, hfree]
        simp [Burst.afterResolution, hres, hack, isDisabled, hd]
      · rw [fallDue_of_not_disabled hd]
        change (p.setAck i .due).slots[i] = _
        rw [setAck, getElem_onSlot, if_pos rfl, hb]
        simp [Burst.afterResolution, Burst.fallsDue, hres, hack, isDisabled, hd]
    · simp [Burst.afterResolution, Burst.fallsDue, hdue, hb]
    · have hdone : b.ack = .sent ∨ b.ack = .dropped := by cases h : b.ack <;> simp_all
      rw [hfree]
      exact (if_pos (by simp [hres, hdone])).symm
    · simp [Burst.afterResolution, Burst.fallsDue, hres, hb]

/-- A resolution leaves the other slot as it was. -/
theorem getElem_afterResolution_of_ne {j : Fin 2} (hij : i ≠ j) : (p.afterResolution i).slots[j] = p.slots[j] := by
  have hfree (q : Cp) : (q.freeSlot i).slots[j] = q.slots[j] := by rw [getElem_freeSlot, if_neg hij]
  have hset (a : AckState) : (p.setAck i a).slots[j] = p.slots[j] := by rw [setAck, getElem_onSlot, if_neg hij]
  cases hb : p.slots[i] with
  | none => rw [afterResolution_of_none hb]
  | some b =>
    rw [afterResolution_of_some hb]
    split_ifs with hres hack hdue
    · by_cases hd : p.receiver = .disabled
      · rw [fallDue_of_disabled hd, dropAck_of_allResolved hb hres, hfree]
        exact hset _
      · rw [fallDue_of_not_disabled hd]
        exact hset _
    · rfl
    · exact hfree p
    · rfl

/-- Beside the slots a resolution touches the order of the bursts, the pending queue and the count of acknowledges dropped. -/
theorem afterResolution_eq : p.afterResolution i =
    { p with
      slots := (p.afterResolution i).slots, order := (p.afterResolution i).order, queue := (p.afterResolution i).queue
      acksDropped := (p.afterResolution i).acksDropped } := by
  cases hb : p.slots[i] with
  | none => rw [afterResolution_of_none hb]
  | some b =>
    rw [afterResolution_of_some hb]
    split_ifs with hres hack hdue
    · by_cases hd : p.receiver = .disabled
      · rw [fallDue_of_disabled hd, dropAck_of_allResolved hb hres]; rfl
      · rw [fallDue_of_not_disabled hd]; rfl
    all_goals rfl

/-- The acknowledge that falls due joins the queue, but while the receiver is DISABLED (R146). -/
theorem afterResolution_queue : (p.afterResolution i).queue =
    p.queue ++ if p.isDisabled = false ∧ (p.slots[i]).any Burst.fallsDue = true then [.slot i] else [] := by
  cases hb : p.slots[i] with
  | none => rw [afterResolution_of_none hb]; simp
  | some b =>
    rw [afterResolution_of_some hb, Option.any_some]
    split_ifs with hres hack hdue hfall
    · rw [fallDue_of_not_disabled (by simpa [isDisabled] using hdue.1)]
    · have hd : p.receiver = .disabled := by simpa [isDisabled, Burst.fallsDue, hres, hack] using hdue
      rw [fallDue_of_disabled hd, dropAck_of_allResolved hb hres, List.append_nil]
      rfl
    all_goals simp_all [Burst.fallsDue, freeSlot]

/-- Acknowledges are dropped only while the receiver is DISABLED (R152). -/
theorem afterResolution_acksDropped (h : p.isDisabled = false) : (p.afterResolution i).acksDropped = p.acksDropped := by
  have hd : p.receiver ≠ .disabled := by simpa [isDisabled] using h
  cases hb : p.slots[i] with
  | none => rw [afterResolution_of_none hb]
  | some b =>
    rw [afterResolution_of_some hb]
    split_ifs
    · rw [fallDue_of_not_disabled hd]; rfl
    all_goals rfl

theorem afterResolution_isDisabled : (p.afterResolution i).isDisabled = p.isDisabled := by
  rw [afterResolution_eq]; rfl

/-! ## The slots one after another (R149 step 6) -/

/-- The resolutions of the slots `l`, one after another. -/
def afterResolutions (l : List (Fin 2)) (p : Cp) : Cp := l.foldl (fun p j => p.afterResolution j) p

theorem afterResolutions_cons (l : List (Fin 2)) :
    p.afterResolutions (i :: l) = (p.afterResolution i).afterResolutions l := rfl

theorem afterResolutions_eq (l : List (Fin 2)) : p.afterResolutions l =
    { p with
      slots := (p.afterResolutions l).slots, order := (p.afterResolutions l).order, queue := (p.afterResolutions l).queue
      acksDropped := (p.afterResolutions l).acksDropped } := by
  induction l generalizing p with
  | nil => rfl
  | cons i l ih =>
    rw [afterResolutions_cons, ih, afterResolution_eq]

/-- Of slots named once each, every one is left as its own resolution leaves it. -/
theorem getElem_afterResolutions {l : List (Fin 2)} (hl : l.Nodup) (j : Fin 2) : (p.afterResolutions l).slots[j] =
    if j ∈ l then (p.slots[j]).bind (Burst.afterResolution p.isDisabled) else p.slots[j] := by
  induction l generalizing p with
  | nil => rfl
  | cons i l ih =>
    obtain ⟨hi, hl⟩ := List.nodup_cons.1 hl
    rw [afterResolutions_cons, ih hl, afterResolution_isDisabled]
    by_cases hij : i = j
    · subst hij
      rw [if_neg hi, if_pos List.mem_cons_self, getElem_afterResolution_self]
    · rw [getElem_afterResolution_of_ne hij]
      simp [Ne.symm hij]

/-- Of slots named once each, the acknowledges that fall due join the queue in the order of the slots. -/
theorem afterResolutions_queue {l : List (Fin 2)} (hl : l.Nodup) : (p.afterResolutions l).queue =
    p.queue ++ if p.isDisabled = false then (l.filter fun j => (p.slots[j]).any Burst.fallsDue).map Ack.slot else [] := by
  induction l generalizing p with
  | nil => simp [afterResolutions]
  | cons i l ih =>
    obtain ⟨hi, hl⟩ := List.nodup_cons.1 hl
    have hrest : (l.filter fun j => ((p.afterResolution i).slots[j]).any Burst.fallsDue) =
        l.filter fun j => (p.slots[j]).any Burst.fallsDue := by
      refine List.filter_congr fun j hj => ?_
      rw [getElem_afterResolution_of_ne fun (h : i = j) => hi (h ▸ hj)]
    rw [afterResolutions_cons, ih hl, afterResolution_isDisabled, afterResolution_queue, hrest, List.filter_cons,
      List.append_assoc]
    congr 1
    split_ifs <;> simp_all

theorem afterResolutions_acksDropped (l : List (Fin 2)) (h : p.isDisabled = false) :
    (p.afterResolutions l).acksDropped = p.acksDropped := by
  induction l generalizing p with
  | nil => rfl
  | cons i l ih =>
    rw [afterResolutions_cons, ih (by rwa [afterResolution_isDisabled]), afterResolution_acksDropped h]

end Cp

end Sys2Proof.Machine
end

section
/-! SUPPORT. The AU's refusal of a capture record: the node's queued records are dropped, and then each slot in turn falls
due or free (R61, R149). -/

namespace Sys2Proof.Machine

/-- The refusal drops a node's queued records in this burst, once record `k` of slot `i` stands refused. -/
def refusedBurst (node : Fin 8) (i : Fin 2) (k : Nat) (j : Fin 2) (c : Burst) : Burst :=
  Burst.dropOf node (if i = j then Burst.resolve k .auRefused c else c)

/-- Steps 1 to 4 of R149: the records refused and dropped, and the node rolled back. -/
def Cp.rolledBack (i : Fin 2) (k : Nat) (node : Fin 8) (p : Cp) : Cp :=
  let n := 1 + droppedWith node p.slots[0] + droppedWith node p.slots[1]
  { p with
    slots := (vmod p.slots i (Option.map (Burst.resolve k .auRefused))).map (Option.map (Burst.dropOf node))
    nodes := vmod p.nodes node fun x =>
      { x with lost := sat16 (x.lost + n), pending := x.pending - n, lastSeq := x.committedSeq } }

namespace Cp

variable {p : Cp} {i : Fin 2} {b : Burst}

theorem recordRefused_of_some (k : Nat) (hb : p.slots[i] = some b) :
    p.recordRefused i k = enterAcking ((p.rolledBack i k b.node).afterResolutions p.order) := by
  unfold recordRefused
  rw [hb]
  rfl

theorem getElem_rolledBack (k : Nat) (node : Fin 8) (j : Fin 2) :
    (p.rolledBack i k node).slots[j] = (p.slots[j]).map (refusedBurst node i k j) := by
  change ((vmod p.slots i _).map _)[j] = _
  rw [Fin.getElem_fin, Vector.getElem_map, ← Fin.getElem_fin, getElem_vmod]
  split <;> cases p.slots[j] <;> simp [refusedBurst, *]

theorem enterAcking_eq : p.enterAcking =
    { p with
      receiver := if (p.receiver = .idle ∨ p.receiver = .waitIdle) ∧ p.queue ≠ [] then .acking else p.receiver
      resume := p.enterAcking.resume } := by
  unfold enterAcking
  split <;> rfl

end Cp

/-- A resolution frees a slot or sets its acknowledge due, or leaves it. -/
theorem Burst.afterResolution_eq (disabled : Bool) (b : Burst) : b.afterResolution disabled =
    if b.allResolved = true ∧ (b.ack = .sent ∨ b.ack = .dropped ∨ b.ack = .notDue ∧ disabled = true) then none
    else some { b with
      ack := bif b.fallsDue then .due else b.ack
      beatsLeft := bif b.fallsDue then none else b.beatsLeft } := by
  unfold Burst.afterResolution
  cases h : b.fallsDue <;> simp [or_assoc]

/-- Setting a record's resolution is replacing it by itself with that resolution. -/
theorem resolve_of_getElem? {b : Burst} {k : Nat} {r : BurstRecord} (hr : b.records[k]? = some r) (res : Resolution) :
    b.resolve k res = { b with records := b.records.set k { r with res := res } } := by
  unfold Burst.resolve
  rw [List.modify_eq_set, hr]
  rfl

theorem dropOf_records (node : Fin 8) (c : Burst) : Burst.dropOf node c =
    { c with records :=
        c.records.map fun x => if c.node = node ∧ x.res = .queued then { x with res := .dropped } else x } := by
  unfold Burst.dropOf Burst.dropQueued
  by_cases h : c.node = node <;> simp [h, BurstRecord.isQueued]

/-- The CP takes the refusal notice, and the append of the refused record ends. -/
theorem exec_refusalNotice_of_refused {s : State} {i : Fin 2} {k : Nat} {code : Result} {q : InProgress}
    (hn : s.cp.refusal = some { slot := i, place := k, code := code }) (hc : s.cp.notices = [])
    (hs : s.cp.stopped = false) (hq : s.au.record = some q) (ho : q.origin = .capture i k)
    (hp : q.phase = .refused code) (hh : s.au.holdup = .idle) (hf : s.au.formatAsked = false) :
    exec .refusalNotice s = .next { s with
      au := { s.au with record := none }
      hp := { s.hp with events := s.hp.events ||| 0x08 }
      cp := Cp.recordRefused i k { s.cp with refusal := none } } := by
  change execRefusalNotice s = _
  unfold execRefusalNotice
  simp only [hn, hc, State.onCp, hs, if_true, Bool.false_eq_true, if_false]
  unfold endRefused
  simp only [latch, State.onHp, hq, hp, ho]
  exact congrArg Host.Outcome.next (endAppend_of_endsPlainly (o := .capture i k) _ trivial hh hf)

/-- Settles O48: after the roll-back each slot of the order is left as `Burst.afterResolution` says, and a slot not in the
order is not verified. -/
theorem refusalRollsBackNode : Obligations.RefusalRollsBackNode := by
  unfold Obligations.RefusalRollsBackNode
  intro s i k code b r q hn hc hs hb hr hres hq ho hp hh hf horder hnodup node queued lost after resolved fallsDue disabled
  let p := Cp.rolledBack i k b.node { s.cp with refusal := none }
  have hafter (j : Fin 2) (c : Burst) (hj : s.cp.slots[j] = some c) :
      refusedBurst b.node i k j c = { c with records := after j c } := by
    unfold refusedBurst
    rw [dropOf_records]
    by_cases hij : i = j
    · subst hij
      obtain rfl : b = c := Option.some.inj (hb.symm.trans hj)
      simp only [if_true, resolve_of_getElem? hr, after]
    · simp only [if_neg hij, if_neg (Ne.symm hij), after]
  have hslot (j : Fin 2) (c : Burst) (hj : s.cp.slots[j] = some c) : p.slots[j] = some { c with records := after j c } := by
    rw [Cp.getElem_rolledBack, ← hafter j c hj]
    exact congrArg _ hj
  have hfalls (j : Fin 2) : (p.slots[j]).any Burst.fallsDue = fallsDue j := by
    cases hj : s.cp.slots[j] with
    | none =>
      rw [Cp.getElem_rolledBack]
      change ((s.cp.slots[j]).map _).any _ = _
      simp only [fallsDue, hj]
      rfl
    | some c =>
      rw [hslot j c hj]
      simp only [fallsDue, hj]
      rfl
  have hexec := exec_refusalNotice_of_refused hn hc hs hq ho hp hh hf
  rw [Cp.recordRefused_of_some (p := { s.cp with refusal := none }) k hb, Cp.enterAcking_eq] at hexec
  have hqueue := Cp.afterResolutions_queue (p := p) hnodup
  simp only [hfalls] at hqueue
  have hdis : p.isDisabled = false ↔ ¬ disabled := by rw [← Bool.not_eq_true, Cp.isDisabled_iff]; rfl
  refine ⟨_, hexec, ?_, fun hd => ⟨?_, ?_⟩, fun hd => ?_, ?_, fun j c hj => ?_⟩
  · rw [Cp.afterResolutions_eq]
    rfl
  · exact hqueue.trans (congrArg _ (if_pos (hdis.2 hd)))
  · exact Cp.afterResolutions_acksDropped _ (hdis.2 hd)
  · exact (hqueue.trans (congrArg _ (if_neg fun h => hdis.1 h hd))).trans (List.append_nil _)
  · rw [Cp.afterResolutions_eq]
    rfl
  · refine (Cp.getElem_afterResolutions hnodup j).trans ?_
    let left : Burst := { c with records := after j c }
    have hdone : (if j ∈ s.cp.order then left.afterResolution p.isDisabled else some left) =
        left.afterResolution p.isDisabled := by
      split
      · rfl
      · next hout =>
        have hv : left.verified = false := Bool.eq_false_iff.2 fun hv => hout (horder j (by rw [hj]; exact hv))
        simp [Burst.afterResolution, Burst.fallsDue, Burst.allResolved, hv]
    have hfall : fallsDue j = left.fallsDue := by
      rw [← hfalls, hslot j c hj]
      rfl
    have hdisabled : p.isDisabled = true ↔ disabled := Cp.isDisabled_iff
    rw [hslot j c hj, hfall]
    exact (hdone.trans (Burst.afterResolution_eq _ left)).trans (by simp only [hdisabled]; rfl)

end Sys2Proof.Machine
end

section
/-! SUPPORT. The AU closes for the hold-up sequence (R64, R183), and what the end of an append starts. -/

namespace Sys2Proof.Machine

/-- The number of records the AU discards as it closes (R64). -/
def discardedBy (s : State) : Nat :=
  s.au.systemLane.length + (s.au.hostLane.filter HostPlace.waits).length + s.pc.discarded

/-- The AU as it closes, before POWER_DOWN: the arbiter paused and the lanes discarded (R64). -/
def closing (s : State) : State :=
  s.onAu (fun a => { a with paused := true, systemLane := [], hostLane := [], holdup := .powerDown })

/-- POWER_DOWN as it is taken, with the number of records discarded (R10, R64). -/
def powerDownRecord (n : Nat) : InProgress :=
  InProgress.take (Record.plain .system 12 ([3, 0] ++ be16 n)) (.system .powerDown)

/-- POWER_DOWN's payload of four bytes makes a record of four units. -/
theorem powerDownRecord_size (n : Nat) : sizeUnits (powerDownRecord n).data.payload.length = 4 := by
  have hlength : (powerDownRecord n).data.payload.length = 4 := rfl
  rw [hlength]
  rfl

section

variable {s : State}

/-! ## The AU closes (R64, R183) -/

theorem closeAu_eq : closeAu s =
    if s.js.journal = .formatting then endAuHoldup (closing s)
    else
      let t := appendChecks (powerDownRecord (discardedBy s)) (closing s)
      if isRefused t then endAuHoldup t else t := rfl

theorem closeAu_of_formatting (h : s.js.journal = .formatting) : closeAu s = endAuHoldup (closing s) := if_pos h

/-- With numbering exhausted POWER_DOWN is dropped, uncounted (R64). -/
theorem closeAu_of_exhausted (h : s.js.journal ≠ .formatting) (hx : s.au.nextSeq = .exhausted) :
    closeAu s = endAuHoldup (closing s) := by
  have hx' : (closing s).au.nextSeq = .exhausted := hx
  rw [closeAu_eq, if_neg h]
  simp only [appendChecks, hx']
  rfl

/-- With a number to give POWER_DOWN begins its write when it fits, its four units ending at unit 255 or before. -/
theorem closeAu_of_value (h : s.js.journal ≠ .formatting) {n : Nat} (hn : s.au.nextSeq = .value n)
    (hfit : s.au.fillPoint ≤ 252) : closeAu s = beginWrite [] [] (powerDownRecord (discardedBy s)) (closing s) := by
  have hn' : (closing s).au.nextSeq = .value n := hn
  have hfits : (closing s).au.fillPoint + sizeUnits (powerDownRecord (discardedBy s)).data.payload.length - 1 ≤ 255 := by
    have hfill : (closing s).au.fillPoint = s.au.fillPoint := rfl
    rw [powerDownRecord_size, hfill]
    omega
  rw [closeAu_eq, if_neg h]
  simp only [appendChecks, hn', if_pos hfits, beginWrite_of_value hn']
  rfl

/-- The checks of an append change of the AU the number, the fill point and the record in progress. -/
theorem appendChecks_au (r : InProgress) :
    ∃ n u q, (appendChecks r s).au = { s.au with nextSeq := n, fillPoint := u, record := q } := by
  unfold appendChecks
  split
  · next n hn =>
    split
    · rw [beginWrite_of_value hn]
      exact ⟨_, _, _, rfl⟩
    · exact ⟨_, _, _, rfl⟩
  all_goals exact ⟨_, _, _, rfl⟩

/-- However POWER_DOWN fares, the closed AU is paused with empty lanes, and no stop is asked for any more. -/
theorem closeAu_au : ∃ n u q h, h ≠ AuHoldup.asked ∧ (closeAu s).au =
    { s.au with
      paused := true, systemLane := [], hostLane := [], nextSeq := n, fillPoint := u, record := q, holdup := h } := by
  obtain ⟨n, u, q, hau⟩ := appendChecks_au (s := closing s) (powerDownRecord (discardedBy s))
  rw [closeAu_eq]
  split
  · exact ⟨_, _, _, .ended, nofun, rfl⟩
  · dsimp only
    split
    · exact ⟨n, u, none, .ended, nofun,
        congrArg (fun a : Au => { a with holdup := .ended, record := none }) hau⟩
    · exact ⟨n, u, q, .powerDown, nofun, hau⟩

/-- Once the AU has closed, no stop waits for the end of an append. -/
theorem stopsAfterAppend_closeAu (hf : s.au.formatAsked = false) : stopsAfterAppend (closeAu s) = closeAu s := by
  obtain ⟨n, u, q, h, hasked, hau⟩ := closeAu_au (s := s)
  unfold stopsAfterAppend
  rw [hau, if_neg hasked]
  exact if_neg (by simpa using hf)

/-! ## The end of RECOVERED and COLD_START (R177, R181, R194, R197) -/

/-- RECOVERED and COLD_START, whose end enters RUN. -/
def Origin.restarts (o : Origin) : Prop := o = .system .recovered ∨ o = .system .coldStart

theorem running_au : (running s).au = s.au := by
  unfold running
  dsimp only
  split <;> simp

theorem enterHoldup_of_no_record (hr : s.au.record = none) :
    ∃ u, u.au = { s.au with holdup := .asked } ∧ enterHoldup s = closeAu u := by
  unfold enterHoldup
  dsimp only
  split
  · next r h => exact absurd (hr.symm.trans h) nofun
  · exact ⟨_, rfl, rfl⟩

theorem stopsAfterAppend_enterRun (hr : s.au.record = none) (hh : s.au.holdup = .idle) (hf : s.au.formatAsked = false) :
    stopsAfterAppend (enterRun s) = enterRun s := by
  rw [enterRun_eq]
  split
  · obtain ⟨u, hu, hclose⟩ := enterHoldup_of_no_record (s := running s) (by rw [running_au, hr])
    rw [hclose]
    exact stopsAfterAppend_closeAu (by rw [hu, running_au]; exact hf)
  · exact stopsAfterAppend_of_idle _ (by rw [running_au, hh]) (by rw [running_au, hf])

theorem endAppend_of_restarts {o : Origin} (ho : o.restarts) (hs : s.pc.supply = .recover ∨ s.pc.supply = .coldInit)
    (hh : s.au.holdup = .idle) (hf : s.au.formatAsked = false) : endAppend o s = enterRun (setRecord none s) := by
  have hne : o ≠ .system .powerDown := by rintro rfl; simp [Origin.restarts] at ho
  have hafter : afterAppend o (setRecord none s) = enterRun (setRecord none s) := by
    obtain rfl | rfl := ho <;> exact if_pos hs
  unfold endAppend
  rw [if_neg hne, hafter]
  exact stopsAfterAppend_enterRun rfl hh hf

theorem formatReached_zero : formatReached 0 s = s := by
  unfold formatReached
  split <;> rfl

/-- A PFI that is low already takes the J64 from the RUN just entered to HOLDUP, as its fall would. -/
theorem exec_holdup_running (h : s.pc.pfiLow = true) :
    exec (.holdup (.falls 0)) (running s) = .next (enterHoldup (running s)) := by
  have hpfi : setPfi true (running s) = running s := by
    have hlow := (running_pfiLow s).trans h
    unfold setPfi State.onPc
    rw [← hlow]
  change Host.Outcome.next (pfiFalls 0 (running s)) = _
  unfold pfiFalls
  rw [hpfi, formatReached_zero]
  exact congrArg _ (if_pos rfl)

/-- `x` is what the entry into RUN from `s` comes to, with PFI high or low. -/
def EntersRun (x : Host.Outcome State Fault Refusal) (s : State) : Prop :=
  (s.pc.pfiLow = false → x = .next (running s)) ∧ (s.pc.pfiLow = true → x = exec (.holdup (.falls 0)) (running s))

theorem entersRun_enterRun : EntersRun (.next (enterRun s)) s := by
  refine ⟨fun h => ?_, fun h => ?_⟩
  · rw [enterRun_eq, h]; rfl
  · rw [exec_holdup_running h, enterRun_eq, h]; rfl

/-- A system record other than POWER_DOWN that is refused is dropped and counted lost before its append ends. -/
theorem refuse_of_restarts {r : InProgress} (code : Result) (ho : r.origin.restarts)
    (hs : s.pc.supply = .recover ∨ s.pc.supply = .coldInit) (hh : s.au.holdup = .idle) (hf : s.au.formatAsked = false) :
    refuse code r s = enterRun (setRecord none (loseSystem s)) := by
  have hend := endAppend_of_restarts (s := loseSystem s) ho hs hh hf
  unfold refuse
  obtain h | h := ho <;> rw [h] at hend ⊢ <;> exact hend

end

end Sys2Proof.Machine
end

section
/-! SUPPORT. The stops that wait for the end of an append (R63, R64), and the statement on what such an end starts. -/

namespace Sys2Proof.Machine

/-- FORMAT's stop request, taken back from the AU. -/
def unasked (s : State) : State := s.onAu (fun a => { a with formatAsked := false })

section

variable {s : State}

/-! ## Appends whose end does not enter RUN -/

/-- An append other than that of RECOVERED, COLD_START and POWER_DOWN ends plainly or is FORMATTED's. -/
theorem Origin.endsPlainly_or_formatted {o : Origin} (hr : ¬ o.restarts) (hp : o ≠ .system .powerDown) :
    o.endsPlainly ∨ o = .system .formatted := by
  match o with
  | .host _ | .capture _ _ | .system .timeSet | .system .silent => exact .inl trivial
  | .system .formatted => exact .inr rfl
  | .system .recovered => exact absurd (.inl rfl) hr
  | .system .coldStart => exact absurd (.inr rfl) hr
  | .system .powerDown => exact absurd rfl hp

theorem unasked_onJs (f : Js → Js) : (unasked s).onJs f = unasked (s.onJs f) := rfl

theorem finishFormat_unasked : finishFormat (unasked s) = unasked (finishFormat s) := by
  unfold finishFormat
  simp only [unasked, State.onAu_js]
  (repeat' split) <;> rfl

theorem formattedEnded_unasked : formattedEnded (unasked s) = unasked (formattedEnded s) := by
  unfold formattedEnded
  rw [unasked_onJs, finishFormat_unasked]

theorem finishFormat_journal : (finishFormat s).js.journal = s.js.journal := by
  unfold finishFormat
  (repeat' split) <;> rfl

theorem formattedEnded_journal : (formattedEnded s).js.journal = s.js.journal := by
  unfold formattedEnded
  rw [finishFormat_journal, State.onJs_js]
  split <;> rfl

theorem afterAppend_unasked {o : Origin} (hr : ¬ o.restarts) (hp : o ≠ .system .powerDown) :
    afterAppend o (unasked s) = unasked (afterAppend o s) := by
  obtain ho | rfl := o.endsPlainly_or_formatted hr hp
  · rw [afterAppend_of_endsPlainly _ ho, afterAppend_of_endsPlainly _ ho]
  · exact formattedEnded_unasked

/-- Such an end leaves the AU, the PC and the state of the journal as they are. -/
theorem afterAppend_keepsAu {o : Origin} (hr : ¬ o.restarts) (hp : o ≠ .system .powerDown) :
    (afterAppend o s).au = s.au ∧ (afterAppend o s).pc = s.pc ∧ (afterAppend o s).js.journal = s.js.journal := by
  obtain ho | rfl := o.endsPlainly_or_formatted hr hp
  · rw [afterAppend_of_endsPlainly _ ho]
    exact ⟨rfl, rfl, rfl⟩
  · exact ⟨(formattedEnded_frame s).2.2.1, (formattedEnded_frame s).2.1, formattedEnded_journal⟩

theorem commit_unasked (r : InProgress) : commit r (unasked s) = unasked (commit r s) := by
  unfold commit
  cases r.origin <;> rfl

/-- A commit changes of the AU no more than the place of a host record, which did not wait. -/
theorem commit_au (r : InProgress) : ∃ l, l.filter HostPlace.waits = s.au.hostLane.filter HostPlace.waits ∧
    (commit r s).au = { s.au with hostLane := l } := by
  unfold commit
  cases r.origin with
  | host tag =>
    refine ⟨_, ?_, rfl⟩
    rw [List.filter_filter]
    refine List.filter_congr fun p _ => ?_
    cases h : p.state <;> simp [HostPlace.waits, h]
  | capture i k => exact ⟨_, rfl, rfl⟩
  | system kind => exact ⟨_, rfl, rfl⟩

theorem commit_journal (r : InProgress) : (commit r s).js.journal = s.js.journal := by
  unfold commit
  cases r.origin <;> rfl

/-- The write step of a record ends with its commit, what waits for that record, and the stops asked for. -/
theorem exec_writeStepEnd_stops {r : InProgress} (hr : s.au.record = some r) (hp : r.phase = .writing)
    (ho : r.origin ≠ .system .powerDown) :
    exec .writeStepEnd s = .next (stopsAfterAppend (afterAppend r.origin (setRecord none (commit r s)))) := by
  rw [exec_writeStepEnd_of_writing s hr hp]
  exact congrArg _ (if_neg ho)

/-! ## FORMAT waits (R63) -/

theorem stopsAfterAppend_of_asked (hh : s.au.holdup = .idle) (hf : s.au.formatAsked = true) : stopsAfterAppend s =
    let t := unasked s
    { t with au := { t.au with paused := true }, js := { t.js with auStopped := true } } := by
  unfold stopsAfterAppend
  rw [if_neg (by rw [hh]; nofun), if_pos hf]
  rfl

theorem stopsAfterAppend_unasked (hh : s.au.holdup = .idle) : stopsAfterAppend (unasked s) = unasked s :=
  stopsAfterAppend_of_idle _ hh rfl

/-- A FORMAT that waits has the arbiter paused and the JS told at the end of the append, which is otherwise as without. -/
theorem exec_writeStepEnd_of_asked {r : InProgress} (hr : s.au.record = some r) (hp : r.phase = .writing)
    (hre : ¬ r.origin.restarts) (hpd : r.origin ≠ .system .powerDown) (hh : s.au.holdup = .idle)
    (hf : s.au.formatAsked = true) :
    ∃ t, exec .writeStepEnd (unasked s) = .next t ∧ exec .writeStepEnd s =
      .next { t with au := { t.au with paused := true }, js := { t.js with auStopped := true } } := by
  let u := afterAppend r.origin (setRecord none (commit r s))
  obtain ⟨l, -, hcommit⟩ := commit_au (s := s) r
  have hau : u.au = { s.au with hostLane := l, record := none } :=
    (afterAppend_keepsAu hre hpd).1.trans (congrArg (fun a : Au => { a with record := none }) hcommit)
  have hidle : u.au.holdup = .idle := by rw [hau]; exact hh
  have hasked : u.au.formatAsked = true := by rw [hau]; exact hf
  have hcommute : afterAppend r.origin (setRecord none (commit r (unasked s))) = unasked u := by
    rw [commit_unasked]
    exact afterAppend_unasked (s := setRecord none (commit r s)) hre hpd
  refine ⟨unasked u, ?_, ?_⟩
  · rw [exec_writeStepEnd_stops (s := unasked s) hr hp hpd, hcommute, stopsAfterAppend_unasked hidle]
  · rw [exec_writeStepEnd_stops hr hp hpd]
    exact congrArg _ (stopsAfterAppend_of_asked hidle hasked)

/-! ## The hold-up sequence waits (R64, R183) -/

/-- A hold-up that waits closes the AU as it stood before the append's end, but for the place of a host record. -/
theorem exec_writeStepEnd_of_holdup {r : InProgress} (hr : s.au.record = some r) (hp : r.phase = .writing)
    (hre : ¬ r.origin.restarts) (hpd : r.origin ≠ .system .powerDown) (hh : s.au.holdup = .asked) :
    ∃ u, exec .writeStepEnd s = .next (closeAu u) ∧ u.au.nextSeq = s.au.nextSeq ∧ u.au.fillPoint = s.au.fillPoint ∧
      u.pc = s.pc ∧ u.js.journal = s.js.journal ∧ discardedBy u = discardedBy s := by
  let u := afterAppend r.origin (setRecord none (commit r s))
  obtain ⟨l, hl, hcommit⟩ := commit_au (s := s) r
  obtain ⟨hafter, hpc, hjournal⟩ := afterAppend_keepsAu (s := setRecord none (commit r s)) hre hpd
  have hau : u.au = { s.au with hostLane := l, record := none } :=
    hafter.trans (congrArg (fun a : Au => { a with record := none }) hcommit)
  have hpc : u.pc = s.pc := hpc.trans (by simp)
  have hclose : stopsAfterAppend u = closeAu u := if_pos (by rw [hau]; exact hh)
  refine ⟨u, ?_, by rw [hau], by rw [hau], hpc, hjournal.trans (commit_journal r), ?_⟩
  · rw [exec_writeStepEnd_stops hr hp hpd]
    exact congrArg _ hclose
  · unfold discardedBy
    rw [hau, hpc, hl]

/-! ## POWER_DOWN -/

theorem endAppend_powerDown : endAppend (.system .powerDown) s = endAuHoldup s := if_pos rfl

/-- POWER_DOWN that is refused is not counted (R64). -/
theorem refuse_of_powerDown {r : InProgress} (code : Result) (ho : r.origin = .system .powerDown) :
    refuse code r s = endAuHoldup s := by
  unfold refuse
  rw [ho]
  exact endAppend_powerDown

end

/-- The refusal of a request for a next segment that is SEALED and may not be reclaimed. -/
theorem sealedRefusal_of_held {s : State} (h : s.js.policy = .stop ∨ nextHeld s = true) : ∃ code, sealedRefusal s code := by
  cases hp : s.js.policy with
  | stop => exact ⟨_, .inl ⟨hp, rfl⟩⟩
  | wrap => exact ⟨_, .inr ⟨hp, h.resolve_left (by rw [hp]; nofun), rfl⟩⟩

theorem exec_nextSegmentRequest_of_held {s : State} {r : InProgress} (hr : s.au.record = some r) (hp : r.phase = .requesting)
    (hst : (s.js.index[s.js.filling + 1]).state = .sealed) (h : s.js.policy = .stop ∨ nextHeld s = true) :
    ∃ code, exec .nextSegmentRequest s = .next (refuse code r s) := by
  obtain ⟨code, hcode⟩ := sealedRefusal_of_held h
  exact ⟨code, by
    rw [exec_nextSegmentRequest_of_requesting s hr hp, nextSegmentRequest_of_sealed s r hst hcode]⟩

/-- With numbering exhausted RECOVERED and COLD_START are refused when the arbiter takes them, and RUN is entered without. -/
theorem exec_arbiterChoice_of_restarts {s : State} {q : SysRequest} {qs : List SysRequest} (hr : s.au.record = none)
    (hp : s.au.paused = false) (hx : s.au.nextSeq = .exhausted) (hq : s.au.systemLane = q :: qs)
    (ho : Origin.restarts (.system q.kind)) (hs : s.pc.supply = .recover ∨ s.pc.supply = .coldInit)
    (hh : s.au.holdup = .idle) (hf : s.au.formatAsked = false) : exec .arbiterChoice s =
      .next (enterRun (setRecord none (loseSystem { s with au := { s.au with systemLane := qs } }))) := by
  let u : State := { s with au := { s.au with systemLane := qs } }
  let r := InProgress.exhausted (Record.plain .system q.kind.cls q.payload) (.system q.kind)
  have htaken : s.onAu (fun a => { a with systemLane := a.systemLane.drop 1 }) = u :=
    congrArg (fun l => { s with au := { s.au with systemLane := l } }) (congrArg (List.drop 1) hq)
  have hrefused := refuse_of_restarts (s := setRecord (some r) u) (r := r) .seqExhausted ho hs hh hf
  rw [exec_arbiterChoice, arbiterChoice_of_system s hp hr hq, takeSystem, htaken, beginAppend_of_exhausted u _ _ hx, hrefused]
  rfl

/-- Settles O29: the end of RECOVERED or COLD_START is the entry into RUN (`entersRun_enterRun`), that of any other record
comes to the stop that waits, and POWER_DOWN's own is the end of the AU's part. -/
theorem appendEndStartsWhatWaits : Obligations.AppendEndStartsWhatWaits := by
  unfold Obligations.AppendEndStartsWhatWaits
  intro restart committed lost run entersRun
  refine ⟨fun s hs hh hf => ⟨fun r hr ho hp => ?_, fun r hr ho hp hst hheld => ?_, fun q qs hr hpause hx hq ho => ?_⟩,
    fun s r hr hp hre hpd => ⟨fun hh hf => exec_writeStepEnd_of_asked hr hp hre hpd hh hf, fun hh => ?_⟩,
    fun s r hr ho => ⟨fun hp => ?_, fun hp hst hheld => ?_⟩⟩
  · have hcommit : commit r s = commitAndTell r s := by
      obtain h | h := ho <;> exact commit_of_system s h
    rw [exec_writeStepEnd_of_writing s hr hp, hcommit,
      endAppend_of_restarts (s := commitAndTell r s) ho hs hh hf]
    exact entersRun_enterRun
  · obtain ⟨code, hexec⟩ := exec_nextSegmentRequest_of_held hr hp hst hheld
    rw [hexec, refuse_of_restarts code ho hs hh hf]
    exact entersRun_enterRun
  · rw [exec_arbiterChoice_of_restarts hr hpause hx hq ho hs hh hf]
    exact entersRun_enterRun
  · intro discarded
    obtain ⟨u, hexec, hseq, hfill, hpc, hjournal, hdiscarded⟩ := exec_writeStepEnd_of_holdup hr hp hre hpd hh
    obtain ⟨_, _, _, _, -, hau⟩ := closeAu_au (s := u)
    refine ⟨_, hexec, by rw [hau], by rw [hau], by rw [hau], fun n hready hn hfit => ?_, fun hnone => ?_⟩
    · rw [closeAu_of_value (by rw [hjournal, hready]; nofun) (hseq.trans hn) (by rwa [hfill]),
        beginWrite_of_value (s := closing u) (hseq.trans hn)]
      refine ⟨rfl, hpc, _, rfl, rfl, rfl, rfl, hfill, ?_⟩
      exact (stampRecord_payload _ _).trans (congrArg (fun d => [3, 0] ++ be16 d) hdiscarded)
    · have hclose : closeAu u = endAuHoldup (closing u) := by
        obtain h | ⟨h, hx⟩ := hnone
        · exact closeAu_of_formatting (hjournal.trans h)
        · exact closeAu_of_exhausted (by rw [hjournal, h]; nofun) (hseq.trans hx)
      rw [hclose]
      exact ⟨rfl, congrArg (fun p : Pc => { p with step := .auEnded }) hpc, rfl⟩
  · rw [exec_writeStepEnd_of_writing s hr hp, ho, commit_of_system s ho, endAppend_powerDown]
    rfl
  · obtain ⟨code, hexec⟩ := exec_nextSegmentRequest_of_held hr hp hst hheld
    rw [hexec, refuse_of_powerDown code ho]
    rfl

end Sys2Proof.Machine
end

section
/-! SUPPORT. The hold-up sequence, block by block (R176, R181 to R184), and FORMAT's third phase where it stops. -/

namespace Sys2Proof.Machine

/-! ## The CP stops (R144, R156) -/

namespace Cp

variable {p : Cp} {i : Fin 2}

theorem dropReception_eq : p.dropReception = { p with reception := none, slots := p.dropReception.slots } := by
  unfold dropReception
  split
  · next r hr => cases r.slot <;> rfl
  · next hr => rw [← hr]

/-- The slot claimed by the burst in reception is released. -/
theorem getElem_dropReception_of_claimed {r : Reception} (hr : p.reception = some r) (hi : r.slot = some i) :
    p.dropReception.slots[i] = none := by
  unfold dropReception
  simp only [hr, hi]
  exact (getElem_vmod _ i i _).trans (if_pos rfl)

theorem getElem_dropReception_of_unclaimed (h : ∀ r, p.reception = some r → r.slot ≠ some i) :
    p.dropReception.slots[i] = p.slots[i] := by
  unfold dropReception
  split
  · next r hr =>
    split
    · next j hj => exact (getElem_vmod _ j i _).trans (if_neg fun hji => h r hr (hj.trans (congrArg some hji)))
    · rfl
  · rfl

/-- A stop leaves of a slot what the clearing of its burst does. -/
theorem getElem_stop : p.stop.slots[i] = (p.dropReception.slots[i]).bind Burst.cleared := by
  change (p.dropReception.slots.map _)[i] = _
  rw [Fin.getElem_fin, Vector.getElem_map, ← Fin.getElem_fin]

/-- The bursts whose slots are kept are those that the order still names. -/
theorem stop_eq : p.stop = { p with
    receiver := .disabled, reception := none, queue := [], frame := none, slot := none, stopped := true
    slots := p.stop.slots, order := p.order.filter (fun i => (p.stop.slots[i]).isSome) } := by
  have hkept (j : Fin 2) : p.dropReception.keeps j = (p.stop.slots[j]).isSome := by
    rw [getElem_stop, keeps]
    cases p.dropReception.slots[j] with
    | none => rfl
    | some b =>
      change b.inAppend = b.cleared.isSome
      unfold Burst.cleared
      cases b.inAppend <;> rfl
  have horder : p.stop.order = p.order.filter fun i => (p.stop.slots[i]).isSome := by
    rw [← List.filter_congr fun j _ => hkept j]
    have hdrop : p.dropReception.order = p.order := by rw [dropReception_eq]
    exact congrArg (List.filter p.dropReception.keeps) hdrop
  rw [← horder]
  unfold stop
  rw [dropReception_eq]

end Cp

/-- A burst with a record in append is kept with its queued records and its acknowledge dropped. -/
theorem Burst.cleared_eq (b : Burst) : b.cleared =
    if b.records.any (fun x => x.res == .inAppend) then some
      { b with
        records := b.records.map (fun x => if x.res = .queued then { x with res := .dropped } else x)
        ack := .dropped, beatsLeft := none }
    else none := by
  have hqueued (x : BurstRecord) : x.isQueued = true ↔ x.res = .queued := beq_iff_eq
  unfold Burst.cleared Burst.dropQueued
  simp only [hqueued]
  rfl

/-! ## HOLDUP is entered (R176, R181 to R183) -/

/-- HOLDUP as it is entered, before the AU closes: the AU is asked to stop. -/
def holding (s : State) : State :=
  { s with
    pc := { s.pc with
      supply := .holdup, step := .closingAu, discarded := queuedIn (s.cp.slots[0]) + queuedIn (s.cp.slots[1]) }
    hp := s.hp.goOffline
    tb := { s.tb with slot := none, staged := none }
    wu := { s.wu with slot := none, boundaries := 0 }
    js := { s.js with slot := none, floorReports := [] }
    cp := s.cp.stop
    cu := s.cu.stop
    au := { s.au with holdup := .asked } }

section

variable {s : State}

theorem enterHoldup_of_record {r : InProgress} (hr : s.au.record = some r) : enterHoldup s = holding s := by
  have h : (holding s).au.record = some r := hr
  change (match (holding s).au.record with | some _ => holding s | none => closeAu (holding s)) = _
  simp only [h]

theorem enterHoldup_of_none (hr : s.au.record = none) : enterHoldup s = closeAu (holding s) := by
  have h : (holding s).au.record = none := hr
  change (match (holding s).au.record with | some _ => holding s | none => closeAu (holding s)) = _
  simp only [h]

theorem appendChecks_eq (r : InProgress) :
    appendChecks r s = { s with au := (appendChecks r s).au, mem := (appendChecks r s).mem } := by
  unfold appendChecks
  split
  · next n hn =>
    split
    · rw [beginWrite_of_value hn]
    · rfl
  all_goals rfl

/-- The close of the AU changes beside the AU the bytes of POWER_DOWN and the step of the sequence. -/
theorem closeAu_writes : closeAu s =
    { s with pc := { s.pc with step := (closeAu s).pc.step }, au := (closeAu s).au, mem := (closeAu s).mem } := by
  rw [closeAu_eq]
  split
  · rfl
  · dsimp only
    split <;> rw [appendChecks_eq] <;> rfl

/-- HOLDUP with a record in progress or without: beside the AU, what POWER_DOWN writes and the step, it is `holding`. -/
theorem enterHoldup_writes : enterHoldup s =
    { holding s with
      pc := { (holding s).pc with step := (enterHoldup s).pc.step }, au := (enterHoldup s).au, mem := (enterHoldup s).mem } := by
  cases hr : s.au.record with
  | none => rw [enterHoldup_of_none hr]; exact closeAu_writes
  | some r => rw [enterHoldup_of_record hr]

/-- In RUN the fall of PFI enters HOLDUP from what FORMAT has reached. -/
theorem exec_holdup_of_run (made : Nat) (h : s.pc.supply = .run) : exec (.holdup (.falls made)) s =
    .next (enterHoldup (formatReached made (setPfi true s))) := by
  change Host.Outcome.next (pfiFalls made s) = _
  unfold pfiFalls
  rw [if_pos h]

theorem formatReached_of_none (made : Nat) (h : lastOfFormat s = none) : formatReached made s = s := by
  unfold formatReached
  rw [h]

theorem lastOfFormat_of_not_last (h : s.js.clearing ≠ some 63) : lastOfFormat s = none :=
  Option.not_isSome_iff_eq_none.1 fun hsome => h (lastOfFormat_isSome_iff.1 hsome).1

theorem lastOfFormat_of_no_clearing (h : ∀ e n, s.js.slot ≠ some { entry := e, phase := .formatClearing n }) :
    lastOfFormat s = none :=
  Option.not_isSome_iff_eq_none.1 fun hsome => by
    obtain ⟨-, e, n, hslot⟩ := lastOfFormat_isSome_iff.1 hsome
    exact h e n hslot

theorem lastOfFormat_of_last {e : Entry} {n : Nat} (hc : s.js.clearing = some 63)
    (hs : s.js.slot = some { entry := e, phase := .formatClearing n }) : lastOfFormat s = some e := by
  unfold lastOfFormat
  simp only [hs, hc, if_true]

/-- FORMAT keeps the steps of its third phase that were made, once its last clearing has ended (R181; log 31). -/
theorem formatReached_of_last {made : Nat} {e : Entry} {n : Nat} (hm : 1 ≤ made) (hc : s.js.clearing = some 63)
    (hs : s.js.slot = some { entry := e, phase := .formatClearing n }) :
    formatReached made s = thirdPhase e made (prepared 63 s) := by
  unfold formatReached
  rw [lastOfFormat_of_last hc hs]
  exact if_neg (by omega)

/-! ## FORMAT's third phase stopped (R44, R181; log 31) -/

/-- The first `made` steps of the third phase, of which the open is one, with segment 1 PREPARED: the open's control block
write goes on, and the numbering, the watermarks and the reclaimed counter are set when their steps are made. -/
theorem thirdPhase_stopped (e : Entry) {made : Nat} (hm : 1 ≤ made) (h : (s.js.index[1]).state = .prepared) :
    let u := requestCopy (openFirst s)
    thirdPhase e made s =
      { u with
        js := { u.js with
          blocked := if 2 ≤ made then .clear else u.js.blocked
          reclaimed := if 5 ≤ made then 0 else u.js.reclaimed
          copyPending := if 6 ≤ made then true else u.js.copyPending }
        au := { u.au with nextSeq := if 3 ≤ made then (if e.renumbers then .value 1 else u.au.nextSeq) else u.au.nextSeq }
        cp := if 4 ≤ made then u.cp.forgetWatermarks else u.cp } := by
  intro u
  let nextState (t : State) : SegState := (t.js.index[t.js.next]).state
  have hopen : nextState (openFirst s) = .prepared := by
    refine (congrArg nextState (openStates_eq s 0 _)).trans ?_
    simpa [nextState, Js.next] using h
  have hprepare : prepare u = setBlocked .clear u :=
    prepare_of_clearing_or_prepared _ (.inr ((congrArg nextState (requestCopy_eq (openFirst s))).trans hopen))
  have hrest (k : Nat) : thirdPhase e (k + 2) s =
      (((thirdPhaseSteps e).drop 2).take k).foldl (fun s f => f s) (setBlocked .clear u) := by
    rw [← hprepare]
    rfl
  match made, hm with
  | 1, _ => rfl
  | 2, _ | 3, _ | 4, _ | 5, _ => exact hrest _
  | k + 6, _ =>
    have hall : ((thirdPhaseSteps e).drop 2).take (k + 4) = (thirdPhaseSteps e).drop 2 :=
      List.take_of_length_le (Nat.le_add_left 4 k)
    have hlast := requestCopy_of_writing (restartNumbers e (setBlocked .clear u)) (requestCopy_copyWrite_isSome (openFirst s))
    have hmade (m : Nat) (hm : m ≤ 6) : m ≤ k + 6 := hm.trans (Nat.le_add_left 6 k)
    rw [hrest, hall]
    simp only [hmade, Nat.reduceLeDiff, if_true]
    exact hlast

end

end Sys2Proof.Machine
end

section
/-! SUPPORT. The statement on the hold-up sequence: HOLDUP entered, POWER_DOWN begun, FORMAT stopped in its third phase, and
the last control block write (R64, R181 to R184). -/

namespace Sys2Proof.Machine

section

variable {s : State}

/-- HOLDUP where FORMAT has not reached its third phase. -/
theorem exec_holdup_of_not_reached {made : Nat} (hrun : s.pc.supply = .run)
    (h : made = 0 ∨ s.js.clearing ≠ some 63 ∨ ∀ e n, s.js.slot ≠ some { entry := e, phase := .formatClearing n }) :
    exec (.holdup (.falls made)) s = .next (enterHoldup (setPfi true s)) := by
  have hreached : formatReached made (setPfi true s) = setPfi true s := by
    obtain rfl | hc | hs := h
    · exact formatReached_zero
    · exact formatReached_of_none made (lastOfFormat_of_not_last hc)
    · exact formatReached_of_none made (lastOfFormat_of_no_clearing hs)
  rw [exec_holdup_of_run made hrun, hreached]

/-- POWER_DOWN as it is stamped, numbered and written OPEN (R3, R10, R57). -/
theorem powerDownRecord_openBytes (n d : Nat) : (stampRecord s (powerDownRecord d).data).openBytes n =
    [0x3C, 4, 4, byte (12 + 16 * 2 + 128 * (!s.tb.isSet).toNat), 0xFF, 0x00] ++ be16 0 ++ be32 n
      ++ be32 s.tb.seconds ++ be16 s.tb.ticks ++ be16 0 ++ be16 0 ++ be16 0 ++ [3, 0] ++ be16 d := by
  have hlength : (stampRecord s (powerDownRecord d).data).payload.length = 4 := rfl
  rw [openBytes_eq, hlength, List.append_assoc _ [3, 0]]
  rfl

/-- With no POWER_DOWN to build, or no number for it, the AU's part ends at once (R64, R183). -/
theorem enterHoldup_of_closed (hr : s.au.record = none)
    (h : s.js.journal = .formatting ∨ (s.js.journal = .ready ∧ s.au.nextSeq = .exhausted)) :
    enterHoldup s = endAuHoldup (closing (holding s)) := by
  rw [enterHoldup_of_none hr]
  obtain hj | ⟨hj, hx⟩ := h
  · exact closeAu_of_formatting hj
  · have hready : (holding s).js.journal ≠ .formatting := ne_of_eq_of_ne hj nofun
    exact closeAu_of_exhausted hready hx

/-- POWER_DOWN that fits begins its write, and takes four units. -/
theorem enterHoldup_of_value {n : Nat} (hr : s.au.record = none) (hj : s.js.journal = .ready)
    (hn : s.au.nextSeq = .value n) (hfit : s.au.fillPoint ≤ 252) :
    let c := closing (holding s)
    let r := powerDownRecord (discardedBy (holding s))
    enterHoldup s =
      { c with
        mem := s.mem.writeCells (beginCells n r c)
        au := { c.au with
          nextSeq := NextSeq.after n, fillPoint := s.au.fillPoint + 4, record := some (r.begun [] [] n c) } } := by
  intro c r
  have hready : (holding s).js.journal ≠ .formatting := ne_of_eq_of_ne hj nofun
  have hfill : min 256 (s.au.fillPoint + sizeUnits r.data.payload.length) = s.au.fillPoint + 4 := by
    rw [powerDownRecord_size]
    omega
  rw [enterHoldup_of_none hr, closeAu_of_value hready hn hfit, beginWrite_of_value (s := c) hn, ← hfill]
  rfl

/-- What memory reads once POWER_DOWN has begun its write. -/
theorem read_powerDown {n d : Nat} (hwf : s.mem.wf = true) (hfit : s.au.fillPoint ≤ 252) (a : Nat) :
    let g := s.js.filling
    let x := g.val * 2048 + s.au.fillPoint * 8
    (s.mem.writeCells (beginCells n (powerDownRecord d) s)).read a =
      if x ≤ a ∧ a < x + 28 then ((stampRecord s (powerDownRecord d).data).openBytes n).getD (a - x) 0
      else if s.au.fillPoint = 1 ∧ headerFirst s.mem g ≠ n ∧ g.val * 2048 ≤ a ∧ a < g.val * 2048 + 8 then
        (segHeader .filling n).getD (a - g.val * 2048) 0
      else s.mem.read a := by
  intro g x
  have hsize : s.au.fillPoint + sizeUnits (powerDownRecord d).data.payload.length ≤ 256 := by
    rw [powerDownRecord_size]
    omega
  have hend : x + 24 + (powerDownRecord d).data.payload.length = x + 28 := Nat.add_assoc x 24 4
  have hread := read_beginCells (n := n) hwf (powerDownRecord d) hsize a
  simp only [and_assoc] at hread
  rw [← hend]
  exact hread

/-- What the open of segment 0 leaves, but for the control block write and the flags (R44). -/
theorem openFirst_fields :
    let u := requestCopy (openFirst s)
    u.js.journal = s.js.journal ∧ u.js.filling = 0 ∧ u.js.index = s.js.index.set 0 (IndexEntry.empty .filling) ∧
    u.js.reclaimed = s.js.reclaimed ∧ u.mem = s.mem.writeCells (headerCells 0 .filling 0) ∧
    u.au = { s.au with fillPoint := 1 } ∧ u.cp = s.cp := by
  intro u
  have hopen : openFirst s = _ := openStates_eq s 0 (headerCells 0 .filling 0)
  have hcopy : u = _ := requestCopy_eq (openFirst s)
  have hmem : u.mem = (openFirst s).mem := (requestCopy_frame (openFirst s)).2.2.2.2.2.2.2.2.1
  rw [hmem]
  generalize (requestCopy (openFirst s)).js.copyWrite = w at hcopy
  generalize (requestCopy (openFirst s)).js.copyPending = c at hcopy
  rw [hcopy, hopen]
  exact ⟨rfl, rfl, rfl, rfl, by with_reducible rfl, rfl, rfl⟩

/-- What the open and the steps made after it leave, but for the control block write and the flags (R44, R181). -/
theorem thirdPhase_stopped_fields (e : Entry) {made : Nat} (hm : 1 ≤ made) (h : (s.js.index[1]).state = .prepared) :
    let t := thirdPhase e made s
    t.js.journal = s.js.journal ∧ t.js.filling = 0 ∧ t.js.index = s.js.index.set 0 (IndexEntry.empty .filling) ∧
    t.js.reclaimed = (if 5 ≤ made then 0 else s.js.reclaimed) ∧ t.mem = s.mem.writeCells (headerCells 0 .filling 0) ∧
    t.au.record = s.au.record ∧
    t.au.nextSeq = (if 3 ≤ made then (if e.renumbers then .value 1 else s.au.nextSeq) else s.au.nextSeq) ∧
    t.cp = if 4 ≤ made then s.cp.forgetWatermarks else s.cp := by
  obtain ⟨hjournal, hfilling, hindex, hreclaimed, hmem, hau, hcp⟩ := openFirst_fields (s := s)
  rw [thirdPhase_stopped e hm h, hau, hcp, hreclaimed]
  exact ⟨hjournal, hfilling, hindex, rfl, hmem, rfl, rfl, rfl⟩

theorem Cp.forgetWatermarks_committedSeq (p : Cp) (k : Fin 8) : (p.forgetWatermarks.nodes[k]).committedSeq = none := by
  simp [forgetWatermarks]

/-! ## The end of the sequence (R184) -/

theorem exec_auEnded_of_ended (z : Nat) (hs : s.pc.supply = .holdup) (hstep : s.pc.step = .auEnded) :
    exec (.auEnded z) s = .next (requestCopy
      ((abandonClearing z s).onPc (fun p => { p with step := .writing (carrier (abandonClearing z s)) }))) := by
  change execAuEnded z s = _
  unfold execAuEnded
  rw [if_pos ⟨hs, hstep⟩]

/-- The last control block write of the sequence ends it. -/
theorem exec_controlBlockWriteEnd_of_holdup {w : CopyWrite} (hs : s.pc.supply = .holdup)
    (hstep : s.pc.step = .writing .thisWrite) (hw : s.js.copyWrite = some w) :
    exec .controlBlockWriteEnd s = .next (holdupEnd (copyWritten w s)) := by
  have hne : s.pc.supply ≠ .coldInit := by rw [hs]; nofun
  change execControlBlockWriteEnd s = _
  unfold execControlBlockWriteEnd
  rw [hw]
  have hpc : (copyWritten w s).pc = s.pc := by rw [copyWritten_eq]
  simp only [hpc, if_neg hne, if_pos (And.intro hs hstep)]

theorem holdupEnd_of_vmain (h : s.pc.vmain = true) :
    holdupEnd s = (mainLost s).onPc (fun p => { p with supply := .start }) := if_pos h

end

/-- Settles O54: the fall of PFI comes to `holding`, from which the AU closes at once when no record is in progress; the
rest of the sequence is the request for the last control block write and that write's end. -/
theorem holdupClosesTheJournal : Obligations.HoldupClosesTheJournal := by
  unfold Obligations.HoldupClosesTheJournal
  refine ⟨?entered, ?stoppedFormat, fun s z hsup hstep => ?auEnded, fun s w hsup hstep hw hvmain => ?writeEnd⟩
  case entered =>
    intro s made hrun hnot queued lost
    let u := setPfi true s
    have hwrites := enterHoldup_writes (s := u)
    have hcp : (enterHoldup u).cp = s.cp.stop := congrArg State.cp hwrites
    refine ⟨_, exec_holdup_of_not_reached hrun hnot, ?_, fun i => ⟨?_, fun hfree => ?_⟩, fun hr => ?_, fun hr hnone => ?_,
      fun n hr hready hn hone hfit hwf => ?_⟩
    · rw [hcp]
      refine hwrites.trans ?_
      exact congrArg (fun p => { holding u with
        pc := { (holding u).pc with step := (enterHoldup u).pc.step }
        au := (enterHoldup u).au, mem := (enterHoldup u).mem, cp := p }) (Cp.stop_eq (p := s.cp))
    · rintro ⟨r, hr, hi⟩
      rw [hcp, Cp.getElem_stop, Cp.getElem_dropReception_of_claimed hr hi]
      rfl
    · rw [hcp, Cp.getElem_stop, Cp.getElem_dropReception_of_unclaimed hfree]
      cases s.cp.slots[i] with
      | none => rfl
      | some b => exact b.cleared_eq
    · obtain ⟨r, hr⟩ := Option.ne_none_iff_exists'.1 hr
      rw [enterHoldup_of_record (s := u) hr]
      exact ⟨rfl, rfl, rfl⟩
    · rw [enterHoldup_of_closed (s := u) hr hnone]
      refine ⟨?_, rfl, rfl⟩
      exact congrArg (fun r => { s.au with
        paused := true, systemLane := [], hostLane := [], holdup := .ended, record := r }) hr.symm
    · intro g x bytes
      let c := closing (holding u)
      rw [enterHoldup_of_value (s := u) hr hready hn hfit]
      refine ⟨(powerDownRecord lost).begun [] [] n c, rfl, rfl, rfl, rfl, rfl, rfl, rfl, fun a => ?_⟩
      refine (read_powerDown (s := c) (d := lost) hwf hfit a).trans ?_
      rw [powerDownRecord_openBytes]
      rfl
  case stoppedFormat =>
    intro s made e n hrun hm hc hs hj hr hprep
    let p := prepared 63 (setPfi true s)
    let t := thirdPhase e made p
    have hp : p = { setPfi true s with
        mem := s.mem.zero (63 * 2048) 2048
        js := { s.js with clearing := none, index := s.js.index.set 63 (IndexEntry.empty .prepared) } } := prepared_eq
    have hnext : (p.js.index[1]).state = .prepared := by
      rw [hp]
      simpa using hprep
    obtain ⟨hjournal, hfilling, hindex, hreclaimed, hmem, hrecord, hseq, hcp⟩ := thirdPhase_stopped_fields e hm hnext
    have hexec : exec (.holdup (.falls made)) s = .next (endAuHoldup (closing (holding t))) := by
      rw [exec_holdup_of_run made hrun, formatReached_of_last (s := setPfi true s) hm hc hs,
        enterHoldup_of_closed (s := t) (hrecord.trans hr) (.inl (hjournal.trans hj))]
    refine ⟨_, hexec, rfl, rfl, rfl, hjournal.trans hj, ?_, hfilling, ?_, ?_, fun k => ?_, hreclaimed⟩
    · change t.js.index[0] = _
      rw [hindex]
      simp
    · rw [headerCells_eq] at hmem
      exact hmem.trans (by rw [hp]; rfl)
    · refine hseq.trans ?_
      simp only [Entry.renumbers_iff, ← ite_and]
      rfl
    · have hnodes : t.cp.stop.nodes = t.cp.nodes := by rw [Cp.stop_eq]
      change (t.cp.stop.nodes[k]).committedSeq = _
      rw [hnodes, hcp]
      split
      · exact Cp.forgetWatermarks_committedSeq _ k
      · rfl
  case auEnded =>
    rw [exec_auEnded_of_ended z hsup hstep]
    cases hc : s.js.clearing with
    | none =>
      rw [abandonClearing_of_none z hc]
      exact congrArg (fun c => Host.Outcome.next (requestCopy { s with
        pc := { s.pc with step := .writing (carrier s) }, js := { s.js with clearing := c } })) hc
    | some g =>
      rw [abandonClearing_of_some z hc]
      rfl
  case writeEnd =>
    refine ⟨_, exec_controlBlockWriteEnd_of_holdup hsup hstep hw, ?_⟩
    rw [holdupEnd_of_vmain (by rw [copyWritten_eq]; exact hvmain), copyWritten_eq]
    exact ⟨rfl, rfl, rfl, rfl, rfl, rfl, rfl, rfl, rfl, rfl, rfl, rfl⟩

end Sys2Proof.Machine
end

section
/-! SUPPORT. What the operations of the TB do to its fields, and the ninth law under each of them (R66, R67, R71 to R76). -/

namespace Sys2Proof.Machine

section

variable {t : Tb}

/-! ## The boundary (R67, R72, R76) -/

theorem Tb.boundaryDue_of_lastTick (h : lastTick t) : t.boundaryDue = true := by
  unfold lastTick at h
  unfold Tb.boundaryDue
  cases ht : t.slew <;> simp only [ht] at h ⊢ <;> simp [h]

theorem Tb.boundary_of_none (h : t.staged = none) : t.boundary =
    { t with seconds := (t.seconds + 1) % 4294967296, ticks := 0, slew := .straight, heldTicks := 0 } := by
  simp [Tb.boundary, h]

theorem Tb.boundary_of_some {v : Nat} (h : t.staged = some v) : t.boundary =
    { t with seconds := v, ticks := 0, staged := none, isSet := true, adjustment := 0, slew := .straight,
             heldTicks := 0, slot := none } := by
  simp [Tb.boundary, h]

/-! ## A tick that is no boundary (R67, R76) -/

theorem Tb.plainTick_of_early (h : t.ticks < 32767) : t.plainTick = { t with ticks := t.ticks + 1 } :=
  if_neg (by omega)

theorem Tb.plainTick_of_last (h : 32767 ≤ t.ticks) : t.plainTick = { t with heldTicks := t.heldTicks + 1 } := if_pos h

/-! ## The beat counter runs beside the time (R69) -/

theorem Tb.beatPhase_boundary (t : Tb) : t.boundary.beatPhase = t.beatPhase := by
  unfold Tb.boundary
  split <;> rfl

theorem Tb.beatPhase_plainTick (t : Tb) : t.plainTick.beatPhase = t.beatPhase := by
  unfold Tb.plainTick
  split <;> rfl

theorem Tb.beatPhase_decide (t : Tb) : t.decide.beatPhase = t.beatPhase := by
  unfold Tb.decide
  dsimp only
  (repeat' split) <;> rfl

/-! ## The ninth law (R66) -/

theorem timeLaw_atStart {n k : Nat} (b : Bool) (phase : Nat) (hn : n < 4294967296) (hk : k < 32768) :
    timeLaw (Tb.atStart n k b phase) := by
  simp [timeLaw, slewLaw, Tb.atStart, hn, hk]

/-- With nothing staged and the adjustment gone, the law says of the time itself what it said before. -/
theorem timeLaw_mainCleared (h : timeLaw t) : timeLaw t.mainCleared := by
  obtain ⟨hticks, -, hseconds, hslew, -⟩ := h
  exact ⟨hticks, by simp [Tb.mainCleared], hseconds, hslew, trivial⟩

theorem timeLaw_unstaged (h : timeLaw t) (x : Option TbSlot) : timeLaw { t with slot := x, staged := none } := by
  obtain ⟨hticks, hadj, hseconds, hslew, -⟩ := h
  exact ⟨hticks, hadj, hseconds, hslew, trivial⟩

theorem timeLaw_staged (h : timeLaw t) (x : Option TbSlot) {v : Nat} (hv : v < 4294967296) :
    timeLaw { t with slot := x, staged := some v } := by
  obtain ⟨hticks, hadj, hseconds, hslew, -⟩ := h
  exact ⟨hticks, hadj, hseconds, hslew, hv⟩

theorem timeLaw_adjusted (h : timeLaw t) {v : Int} (hv : v.natAbs ≤ 32767) : timeLaw { t with adjustment := v } := by
  obtain ⟨hticks, -, hrest⟩ := h
  exact ⟨hticks, hv, hrest⟩

theorem timeLaw_boundary (h : timeLaw t) : timeLaw t.boundary := by
  obtain ⟨hticks, hadj, hseconds, -, hstaged⟩ := h
  cases hs : t.staged with
  | none =>
    rw [Tb.boundary_of_none hs]
    exact ⟨by simp, hadj, Nat.mod_lt _ (by decide), ⟨rfl, fun h => absurd rfl h⟩, hstaged⟩
  | some v =>
    rw [hs] at hstaged
    rw [Tb.boundary_of_some hs]
    exact ⟨by simp, by simp, hstaged, ⟨rfl, fun h => absurd rfl h⟩, trivial⟩

theorem heldTicks_of_timeLaw (h : timeLaw t) (hearly : t.ticks ≠ 32767) : t.heldTicks = 0 := by
  obtain ⟨-, -, -, ⟨-, hheld⟩, -⟩ := h
  exact by_contra fun hne => hearly (hheld hne)

/-- A tick that is no boundary is held only in a lengthened second whose hold is not over. -/
theorem timeLaw_plainTick (h : timeLaw t) (hdue : t.boundaryDue = false) : timeLaw t.plainTick := by
  have hnone := heldTicks_of_timeLaw h
  obtain ⟨hticks, hadj, hseconds, ⟨hslew, -⟩, hstaged⟩ := h
  by_cases hearly : t.ticks < 32767
  · rw [Tb.plainTick_of_early hearly]
    exact ⟨by dsimp only; omega, hadj, hseconds, ⟨hslew, fun hne => absurd (hnone (by omega)) hne⟩, hstaged⟩
  · rw [Tb.plainTick_of_last (by omega)]
    refine ⟨hticks, hadj, hseconds, ⟨?_, fun _ => by dsimp only; omega⟩, hstaged⟩
    unfold Tb.boundaryDue at hdue
    cases hs : t.slew with
    | straight => simp [hs] at hdue; omega
    | shorten m => simp [hs] at hdue; omega
    | lengthen m => simp [hs] at hdue hslew ⊢; omega

/-- What is decided is taken from the adjustment, on its own side of 0. -/
theorem timeLaw_decide (h : timeLaw t) (hnone : t.heldTicks = 0) : timeLaw t.decide := by
  obtain ⟨hticks, hadj, hseconds, -, hstaged⟩ := h
  have hheld : t.heldTicks ≠ 0 → t.ticks = 32767 := fun hne => absurd hnone hne
  unfold Tb.decide
  dsimp only
  split
  · exact ⟨hticks, hadj, hseconds, ⟨hnone, hheld⟩, hstaged⟩
  · split
    · exact ⟨hticks, by dsimp only; omega, hseconds, ⟨⟨by omega, by omega, hnone⟩, hheld⟩, hstaged⟩
    · exact ⟨hticks, by dsimp only; omega, hseconds, ⟨⟨by omega, by omega, by dsimp only; omega⟩, hheld⟩, hstaged⟩

end

end Sys2Proof.Machine
end

section
/-! SUPPORT. One oscillator tick, part by part: the time, the boundary, the beat (R67 to R69, R72, R75, R76). -/

namespace Sys2Proof.Machine

section

variable (s : State)

/-! ## What a tick does to the TB -/

theorem boundaryTick_tb : (boundaryTick s).tb = s.tb.boundary := by
  unfold boundaryTick
  dsimp only
  split <;> simp

theorem advanceTime_of_due (h : s.tb.boundaryDue = true) : advanceTime s = boundaryTick s := if_pos h

theorem advanceTime_of_not_due (h : s.tb.boundaryDue = false) : advanceTime s =
    { s with tb := if s.tb.ticks = 32750 ∧ s.pc.supply.powered then s.tb.plainTick.decide else s.tb.plainTick } :=
  if_neg (by simp [h])

theorem advanceTime_beatPhase : (advanceTime s).tb.beatPhase = s.tb.beatPhase := by
  cases h : s.tb.boundaryDue with
  | true => rw [advanceTime_of_due s h, boundaryTick_tb, Tb.beatPhase_boundary]
  | false =>
    rw [advanceTime_of_not_due s h]
    dsimp only
    split <;> simp only [Tb.beatPhase_decide, Tb.beatPhase_plainTick]

theorem oscillatorTick_of_counting (h : s.pc.supply ≠ .off) : oscillatorTick s = countBeat (advanceTime s) := if_neg h

/-! ## The beat (R69) -/

theorem countBeat_of_early (h : s.tb.beatPhase < 31) :
    countBeat s = { s with tb := { s.tb with beatPhase := s.tb.beatPhase + 1 } } := if_pos (by omega)

theorem countBeat_of_last (h : s.tb.beatPhase = 31) : countBeat s =
    let u : State := { s with tb := { s.tb with beatPhase := 0 } }
    if s.pc.supply.powered then beatEvent u else u := if_neg (by omega)

theorem countBeat_tb : (countBeat s).tb =
    { s.tb with beatPhase := if s.tb.beatPhase + 1 < 32 then s.tb.beatPhase + 1 else 0 } := by
  unfold countBeat
  dsimp only
  (repeat' split) <;> simp

theorem beatEvent_cu : (beatEvent s).cu =
    { s.cu with cursors := s.cu.cursors.map (fun c => { c with beatsLeft := c.beatsLeft.map (fun n => n - 1) }) } := rfl

theorem beatEvent_cp : (beatEvent s).cp = { s.cp with
    slots := s.cp.slots.map (Option.map (fun b => { b with beatsLeft := b.beatsLeft.map (fun n => n - 1) })) } := rfl

/-! ## The second boundary (R67, R68, R72) -/

theorem announceSet_of_unstaged {t : Tb} (h : t.staged = none) : announceSet t s = s := by
  simp [announceSet, h]

theorem announceSet_of_staged {t : Tb} {e : Entry} {o : Stamp} {v : Nat} (hv : t.staged = some v)
    (hslot : t.slot = some { entry := e, old := some o }) : announceSet t s =
      answer e .done [] (latch .timeSet
        (requestSystem (SysRequest.make .timeSet 0 (be32 o.seconds ++ be16 o.ticks ++ be32 v)) s)) := by
  simp [announceSet, hv, hslot]

theorem boundaryTick_eq : boundaryTick s = (announceSet s.tb (s.onTb Tb.boundary)).onWu (fun w =>
    if s.pc.supply = .run then { w with boundaries := w.boundaries + 1 } else w) := by
  simp only [boundaryTick, announceSet_frame, State.onTb_pc]
  by_cases hrun : s.pc.supply = .run
  · simp only [if_pos hrun]
  · simp only [if_neg hrun]
    rfl

/-- SECOND_BOUNDARY at a boundary that is no beat. -/
theorem exec_secondBoundary_of_due (hdue : s.tb.boundaryDue = true) (hoff : s.pc.supply ≠ .off)
    (hbeat : s.tb.beatPhase < 31) : exec .secondBoundary s = .next
      { boundaryTick s with tb := { s.tb.boundary with beatPhase := s.tb.beatPhase + 1 } } := by
  have hphase : (boundaryTick s).tb.beatPhase = s.tb.beatPhase := by rw [boundaryTick_tb, Tb.beatPhase_boundary]
  change Host.Outcome.next (if s.tb.boundaryDue then oscillatorTick s else s) = _
  rw [if_pos hdue, oscillatorTick_of_counting s hoff, advanceTime_of_due s hdue,
    countBeat_of_early _ (by rw [hphase]; exact hbeat), hphase, boundaryTick_tb]

end

/-! ## The decision (R75) -/

/-- Up to 16 ticks of the adjustment are decided, and the rest of it remains. -/
theorem Tb.decide_eq (t : Tb) : t.decide = { t with
    slew := if t.adjustment = 0 then .straight
      else if 0 < t.adjustment then .shorten (min 16 t.adjustment.natAbs)
      else .lengthen (min 16 t.adjustment.natAbs)
    adjustment := if 16 < t.adjustment then t.adjustment - 16
      else if t.adjustment < -16 then t.adjustment + 16 else 0 } := by
  unfold Tb.decide
  dsimp only
  split
  case isTrue hzero => simp [hzero]
  case isFalse =>
    split <;>
    · simp only [Tb.mk.injEq, true_and, and_true]
      omega

/-! ## Ticks in a row (R67, R76) -/

/-- The ticks rise to the last one of the second, and from there on the ticks held are counted. -/
theorem Tb.plainTick_iterate (t : Tb) (h : t.ticks ≤ 32767) (k : Nat) : Tb.plainTick^[k] t =
    { t with ticks := min 32767 (t.ticks + k), heldTicks := t.heldTicks + (t.ticks + k - 32767) } := by
  induction k with
  | zero => simp [Nat.min_eq_right h, Nat.sub_eq_zero_of_le h]
  | succ k ih =>
    rw [Function.iterate_succ_apply', ih]
    unfold Tb.plainTick
    split <;> next hlast =>
      simp only [Tb.mk.injEq, true_and, and_true] at hlast ⊢
      omega

/-! ## The statements on the boundary, the decision and the beat -/

/-- Settles O11: the tick is a boundary and no beat; with nothing staged it begins the next second, with a SET_TIME staged it
announces the value set. -/
theorem secondBoundaryCountsOrSets : Obligations.SecondBoundaryCountsOrSets := by
  unfold Obligations.SecondBoundaryCountsOrSets
  intro s hlast hbeat
  have hdue := Tb.boundaryDue_of_lastTick hlast
  refine ⟨fun hnone hoff => ?next, fun e o v hv hslot hrun hidle hroom => ?set⟩
  case next =>
    rw [exec_secondBoundary_of_due s hdue hoff hbeat]
    rw [boundaryTick_eq, announceSet_of_unstaged _ hnone, Tb.boundary_of_none hnone]
    rfl
  case set =>
    rw [exec_secondBoundary_of_due s hdue (by simp [hrun]) hbeat]
    rw [boundaryTick_eq, announceSet_of_staged _ hv hslot, requestSystem_of_room _ (s.onTb Tb.boundary) hidle hroom,
      Tb.boundary_of_some hv]
    simp only [if_pos hrun]
    rfl

/-- Settles O12: the decision is the tick to 32,751; after it the ticks and the ticks held follow `Tb.plainTick_iterate`. -/
theorem decisionPointSetsSecondLength : Obligations.DecisionPointSetsSecondLength := by
  unfold Obligations.DecisionPointSetsSecondLength
  refine ⟨fun s hticks hpowered hbeat hstraight => ?decision, fun t k hticks hheld => ?length⟩
  case decision =>
    have hdue : s.tb.boundaryDue = false := by simp [Tb.boundaryDue, hstraight, hticks]
    have hoff : s.pc.supply ≠ .off := fun h => by simp [h, Supply.powered] at hpowered
    have hplain : s.tb.plainTick = { s.tb with ticks := s.tb.ticks + 1 } := Tb.plainTick_of_early (by omega)
    change Host.Outcome.next (if s.tb.ticks = 32750 ∧ s.pc.supply.powered then oscillatorTick s else s) = _
    rw [if_pos ⟨hticks, hpowered⟩, oscillatorTick_of_counting s hoff,
      countBeat_of_early _ (by rw [advanceTime_beatPhase]; exact hbeat), advanceTime_beatPhase,
      advanceTime_of_not_due s hdue, if_pos ⟨hticks, hpowered⟩, hplain, hticks, Tb.decide_eq]
  case length =>
    rw [Tb.plainTick_iterate t (by omega) k, hticks, hheld]
    refine ⟨fun hs hk => ?_, fun m hs h1 h16 hk => ?_, fun m hs h1 hk => ?_⟩
    all_goals
      simp only [Tb.boundaryDue, hs, Bool.and_eq_true, decide_eq_true_eq]
      omega

/-- Settles O13: a tick keeps the beat counter but for the count itself, and the 32nd makes the beat event of a powered main
domain. -/
theorem beatsCountWaitsDown : Obligations.BeatsCountWaitsDown := by
  unfold Obligations.BeatsCountWaitsDown
  intro s hoff
  dsimp only
  rw [oscillatorTick_of_counting s hoff]
  have hphase := advanceTime_beatPhase s
  refine ⟨fun hearly => ?_, fun hlast => ?_⟩
  · rw [countBeat_of_early _ (hphase.trans_lt hearly), hphase]
    exact ⟨rfl, by simp, by simp⟩
  · rw [countBeat_of_last _ (hphase.trans hlast)]
    refine ⟨?_, fun hpowered => ?_, fun hunpowered => ?_⟩
    · dsimp only
      split <;> simp
    · rw [if_pos (by simpa using hpowered)]
      simp only [beatEvent_cu, beatEvent_cp, advanceTime_frame, and_self]
    · simp [hunpowered]

end Sys2Proof.Machine
end

section
/-! SUPPORT. The commands in the TB's slot: READ_TIME, SET_TIME and ADJUST_TIME (R71, R74, R77, R199). -/

namespace Sys2Proof.Machine

/-! ## Numbers read from an entry (R199) -/

theorem readSigned16_mod {v : Int} (hlow : -32768 ≤ v) (hhigh : v ≤ 32767) : readSigned16 (v % 65536).toNat = v := by
  unfold readSigned16
  omega

theorem natAbs_readSigned16_le {n : Nat} (hn : n < 65536) (hv : readSigned16 n ≠ -32768) :
    (readSigned16 n).natAbs ≤ 32767 := by
  unfold readSigned16 at hv ⊢
  omega

theorem rd8_lt (l : List Byte) (i : Nat) : rd8 l i < 256 := (l.getD i 0).isLt

theorem rd16_lt (l : List Byte) (i : Nat) : rd16 l i < 65536 := by
  have h0 := rd8_lt l i
  have h1 := rd8_lt l (i + 1)
  unfold rd16
  omega

theorem rd32_lt (l : List Byte) (i : Nat) : rd32 l i < 4294967296 := by
  have h0 := rd16_lt l i
  have h1 := rd16_lt l (i + 2)
  unfold rd32
  omega

section

variable {s : State} {e : Entry}

/-! ## The commands (R71, R74, R77) -/

theorem withTb_of_dispatched {o : Nat} {op : Byte} (f : Entry → State → State)
    (hslot : s.tb.slot = some { entry := e, old := none }) (hop : e.opcode = op) (ho : op.toNat = o) :
    withTb o f s = f e s := by
  subst hop
  unfold withTb
  rw [hslot]
  exact if_pos ho

theorem readTime_of_payload (h : e.payload ≠ []) : readTime e s = answerTb e .badParam [] s := if_pos h

theorem readTime_of_good (h : e.payload = []) : readTime e s = answerTb e .done
    (be32 s.tb.seconds ++ be16 s.tb.ticks ++ [byte s.tb.isSet.toNat] ++ signed16 s.tb.adjustment) s :=
  if_neg (not_not_intro h)

theorem setTime_of_payload (h : e.payload ≠ []) : setTime e s = answerTb e .badParam [] s := if_pos h

theorem setTime_of_good (h : e.payload = []) : setTime e s =
    s.onTb (fun t => { t with staged := some (rd32 e.params 0), slot := some { entry := e, old := some t.now } }) :=
  if_neg (not_not_intro h)

theorem adjustTime_of_bad (h : readSigned16 (e.param16 0) = -32768 ∨ e.payload ≠ []) :
    adjustTime e s = answerTb e .badParam [] s := if_pos h

theorem adjustTime_of_good (h : readSigned16 (e.param16 0) ≠ -32768) (hp : e.payload = []) : adjustTime e s =
    answerTb e .done [] (s.onTb (fun t => { t with adjustment := readSigned16 (e.param16 0) })) :=
  if_neg (by simp [h, hp])

end

/-! ## The statement on the time commands -/

/-- Settles O10: the command in the slot is taken, and each clause is the branch of its meaning that the operands choose. -/
theorem timeCommandsAnswer : Obligations.TimeCommandsAnswer := by
  unfold Obligations.TimeCommandsAnswer
  refine ⟨fun s e hslot => ?commands, fun t n hstaged => ?replaced, fun s e rest x hslot hop hq => ?waits⟩
  case commands =>
    have hread (h : e.opcode = 0x40) : exec .readTime s = .next (readTime e s) :=
      congrArg _ (withTb_of_dispatched readTime hslot h rfl)
    have hset (h : e.opcode = 0x41) : exec .setTime s = .next (setTime e s) :=
      congrArg _ (withTb_of_dispatched setTime hslot h rfl)
    have hadjust (h : e.opcode = 0x42) : exec .adjustTime s = .next (adjustTime e s) :=
      congrArg _ (withTb_of_dispatched adjustTime hslot h rfl)
    refine ⟨fun hop hp => ?_, fun hop hp => ?_, fun v hop hp hlow hhigh hv => ?_, fun hop hp => ?_, fun hop hp => ?_,
      fun hop hp => ?_⟩
    · rw [hread hop, readTime_of_good hp]
      rfl
    · rw [hset hop, setTime_of_good hp]
      rfl
    · have hvalue : readSigned16 (e.param16 0) = v := by rw [hv, readSigned16_mod hlow hhigh]
      rw [hadjust hop]
      split
      case isTrue hmin =>
        rw [adjustTime_of_bad (.inl (hvalue.trans hmin))]
        rfl
      case isFalse hmin =>
        rw [adjustTime_of_good (by rw [hvalue]; exact hmin) hp, hvalue]
        rfl
    · rw [hread hop, readTime_of_payload hp]
      rfl
    · rw [hset hop, setTime_of_payload hp]
      rfl
    · rw [hadjust hop, adjustTime_of_bad (.inr hp)]
      rfl
  case replaced =>
    rw [Tb.boundary_of_some hstaged]
  case waits =>
    have hunit : unitOf e.opcode = some .tb := unitOf_eq_some_iff.2 (by simp [hop, CmdUnit.opcodes])
    rw [exec_dispatch_of_unit hq hunit, if_neg (by simp [unitFree, hslot])]

end Sys2Proof.Machine
end

section
/-! SUPPORT. Every step keeps the ninth law (R66): most operations leave the TB as it is, and the others count, set or clear
it. -/

namespace Sys2Proof.Machine

/-! ## A command taken from a unit's slot, or a transaction, does what its meaning does or nothing -/

section

variable (P : State → Prop) {s : State} (hs : P s)

include hs

theorem withJs_keeps (o : Nat) {f : Entry → State → State} (hf : ∀ e, P (f e s)) : P (withJs o f s) := by
  unfold withJs
  (repeat' split) <;> simp only [hs, hf]

theorem withCu_keeps (o : Nat) {f : Entry → State → State} (hf : ∀ e, P (f e s)) : P (withCu o f s) := by
  unfold withCu
  (repeat' split) <;> simp only [hs, hf]

theorem withTb_keeps (o : Nat) {f : Entry → State → State} (hf : ∀ e, P (f e s)) : P (withTb o f s) := by
  unfold withTb
  (repeat' split) <;> simp only [hs, hf]

theorem withWu_keeps (o : Nat) {f : Entry → State → State} (hf : ∀ e, P (f e s)) : P (withWu o f s) := by
  unfold withWu
  (repeat' split) <;> simp only [hs, hf]

theorem withCp_keeps (o : Nat) {f : Entry → State → State} (hf : ∀ e, P (f e s)) : P (withCp o f s) := by
  unfold withCp
  (repeat' split) <;> simp only [hs, hf]

theorem withScan_keeps {f : Entry → Scan → State → State} (hgone : ∀ e sc, P (findsGone e sc s))
    (hf : ∀ e sc, P (f e sc s)) : P (withScan f s) := by
  unfold withScan
  (repeat' split) <;> simp only [hs, hgone, hf]

theorem onBus_keeps {f : State → State} (hf : P (f s)) : P (onBus f s) := by
  unfold onBus
  split
  · exact hf
  · exact hs

omit hs in
theorem withCursor_keeps (moves : Bool) (e : Entry) {f : Fin 4 → Entry → State → State}
    (hreject : ∀ r, P (rejectCu e r s)) (hf : ∀ c, P (f c e s)) : P (withCursor moves f e s) := by
  unfold withCursor
  (repeat' split) <;> simp only [hreject, hf]

end

/-- The ninth law holds of this state's TB. -/
abbrev timeHolds (s : State) : Prop := timeLaw s.tb

section

variable {s : State} (h : timeLaw s.tb)

include h

/-! ## The TB's own operations (R67 to R77) -/

theorem advanceTime_timeLaw : timeLaw (advanceTime s).tb := by
  cases hdue : s.tb.boundaryDue with
  | true =>
    rw [advanceTime_of_due s hdue, boundaryTick_tb]
    exact timeLaw_boundary h
  | false =>
    have hplain := timeLaw_plainTick h hdue
    rw [advanceTime_of_not_due s hdue]
    dsimp only
    split
    case isTrue hdecides =>
      have hearly : s.tb.plainTick.ticks ≠ 32767 := by simp [Tb.plainTick, hdecides]
      exact timeLaw_decide hplain (heldTicks_of_timeLaw hplain hearly)
    case isFalse => exact hplain

theorem oscillatorTick_timeLaw : timeLaw (oscillatorTick s).tb := by
  unfold oscillatorTick
  split
  · exact h
  · rw [countBeat_tb]
    exact advanceTime_timeLaw h

theorem readTime_timeLaw (e : Entry) : timeLaw (readTime e s).tb := by
  by_cases hp : e.payload = []
  · rw [readTime_of_good hp]
    exact h
  · rw [readTime_of_payload hp]
    exact h

theorem setTime_timeLaw (e : Entry) : timeLaw (setTime e s).tb := by
  by_cases hp : e.payload = []
  · rw [setTime_of_good hp]
    exact timeLaw_staged h _ (rd32_lt _ _)
  · rw [setTime_of_payload hp]
    exact h

theorem adjustTime_timeLaw (e : Entry) : timeLaw (adjustTime e s).tb := by
  by_cases hbad : readSigned16 (e.param16 0) = -32768 ∨ e.payload ≠ []
  · rw [adjustTime_of_bad hbad]
    exact h
  · obtain ⟨hvalue, hp⟩ := not_or.1 hbad
    rw [adjustTime_of_good hvalue (not_not.1 hp)]
    exact timeLaw_adjusted (t := { s.tb with slot := none }) h (natAbs_readSigned16_le (rd16_lt e.params 0) hvalue)

theorem placeIn_timeLaw (u : CmdUnit) (e : Entry) : timeLaw (placeIn u e s).tb := by
  cases u with
  | au => simpa [placeIn] using h
  | js | cu | tb | wu | cp => exact h

/-! ## Hold-up, the entry into RUN and the end of an append (R176, R181 to R183, R194, R197) -/

/-- Hold-up takes the command out of the TB's slot, and its staged value with it. -/
theorem enterHoldup_timeLaw : timeLaw (enterHoldup s).tb := by
  have hcleared := timeLaw_unstaged h none
  unfold enterHoldup
  dsimp only
  split
  · exact hcleared
  · simpa using hcleared

theorem enterRun_timeLaw : timeLaw (enterRun s).tb := by
  unfold enterRun
  dsimp only
  (repeat' split) <;> simp [enterHoldup_timeLaw, h]

theorem afterAppend_timeLaw (o : Origin) : timeLaw (afterAppend o s).tb := by
  unfold afterAppend
  (repeat' split) <;> simp [enterRun_timeLaw, h]

theorem endAppend_timeLaw (o : Origin) : timeLaw (endAppend o s).tb := by
  unfold endAppend
  split <;> simp [afterAppend_timeLaw, h]

theorem refuse_timeLaw (code : Result) (r : InProgress) : timeLaw (refuse code r s).tb := by
  unfold refuse
  split <;> simp [endAppend_timeLaw, h]

theorem settleRefusal_timeLaw : timeLaw (settleRefusal s).tb := by
  unfold settleRefusal
  (repeat' split) <;> simp [refuse_timeLaw, h]

theorem arbiterChoice_timeLaw : timeLaw (arbiterChoice s).tb := by
  unfold arbiterChoice takeSystem takeHost takeCapture beginAppend
  (repeat' split) <;> simp [settleRefusal_timeLaw, h]

theorem nextSegmentRequest_timeLaw (r : InProgress) : timeLaw (nextSegmentRequest r s).tb := by
  unfold nextSegmentRequest
  dsimp only
  (repeat' split) <;> simp [refuse_timeLaw, h]

theorem endRefused_timeLaw : timeLaw (endRefused s).tb := by
  unfold endRefused
  (repeat' split) <;> simp [endAppend_timeLaw, h]

theorem pfiFalls_timeLaw (made : Nat) : timeLaw (pfiFalls made s).tb := by
  unfold pfiFalls
  split
  · exact enterHoldup_timeLaw (by simpa [setPfi] using h)
  · exact h

/-! ## Abrupt stops, START, recovery and cold initialisation (R67, R79, R178 to R180, R186, R194, R196, R197) -/

theorem recover_timeLaw : timeLaw (recover s).tb := by
  have hcleared := timeLaw_mainCleared h
  unfold recover
  dsimp only
  split <;> simpa using hcleared

theorem coldStart_timeLaw : timeLaw (coldStart s).tb := by
  simpa [coldStart] using timeLaw_mainCleared h

/-- The counting part goes on through a stop of the main domain. -/
theorem mainLost_timeLaw : timeLaw (mainLost s).tb := by
  obtain ⟨hticks, -, hseconds, -⟩ := h
  exact timeLaw_atStart _ _ hseconds hticks

theorem stopMain_timeLaw (cut : Cut) : timeLaw (stopMain cut s).tb := by
  unfold stopMain
  split <;> exact mainLost_timeLaw (by simpa using h)

omit h in
/-- The free values found after OFF are words of 32 and of 15 bits. -/
theorem enterOff_timeLaw : timeLaw (enterOff s).tb := timeLaw_atStart _ _ (BitVec.isLt _) (BitVec.isLt _)

theorem enterUnpowered_timeLaw : timeLaw (enterUnpowered s).tb := by
  unfold enterUnpowered
  split
  · exact h
  · exact enterOff_timeLaw

theorem holdupEnd_timeLaw : timeLaw (holdupEnd s).tb := by
  unfold holdupEnd
  split
  · exact mainLost_timeLaw h
  · exact enterUnpowered_timeLaw (mainLost_timeLaw h)

omit h in
theorem beginCold_timeLaw : timeLaw (beginCold s).tb := timeLaw_atStart _ _ (by decide) (by decide)

theorem beginRecovery_timeLaw : timeLaw (beginRecovery s).tb := by
  unfold beginRecovery
  split
  · exact h
  · exact beginCold_timeLaw

/-! ## Every command -/

theorem exec_timeLaw (c : Instr) : ∃ t, exec c s = .next t ∧ timeLaw t.tb := by
  cases c with
  | readTime => exact ⟨_, rfl, withTb_keeps timeHolds h _ (readTime_timeLaw h)⟩
  | setTime => exact ⟨_, rfl, withTb_keeps timeHolds h _ (setTime_timeLaw h)⟩
  | adjustTime => exact ⟨_, rfl, withTb_keeps timeHolds h _ (adjustTime_timeLaw h)⟩
  | secondBoundary | decisionPoint => exact ⟨_, rfl, by split <;> simp [oscillatorTick_timeLaw, h]⟩
  | arbiterChoice => exact ⟨_, rfl, arbiterChoice_timeLaw h⟩
  | nextSegmentRequest => exact ⟨_, rfl, by (repeat' split) <;> simp [nextSegmentRequest_timeLaw, h]⟩
  | writeStepEnd => exact ⟨_, rfl, by (repeat' split) <;> simp [endAppend_timeLaw, h]⟩
  | refusalNotice =>
    refine ⟨_, rfl, ?_⟩
    split
    · split
      · exact endRefused_timeLaw (by split <;> simpa using h)
      · exact h
    · exact h
  | holdup change =>
    refine ⟨_, rfl, ?_⟩
    cases change with
    | rises => exact h
    | falls made => exact pfiFalls_timeLaw h made
  | controlBlockWriteEnd =>
    refine ⟨_, rfl, ?_⟩
    split
    · exact h
    · dsimp only
      (repeat' split) <;> simp [holdupEnd_timeLaw, coldStart_timeLaw, h]
  | recoveryScanEnd => exact ⟨_, rfl, by split <;> simp [recover_timeLaw, h]⟩
  | retentionLatchExamine => exact ⟨_, rfl, by (repeat' split) <;> simp [beginCold_timeLaw, beginRecovery_timeLaw, h]⟩
  | resetAssert cut =>
    refine ⟨_, rfl, ?_⟩
    dsimp only
    split
    · exact stopMain_timeLaw (by exact h) cut
    · exact h
  | vmainLost cut =>
    refine ⟨_, rfl, ?_⟩
    split
    · exact enterUnpowered_timeLaw (stopMain_timeLaw (by exact h) cut)
    · exact h
  | vbatFall => exact ⟨_, rfl, by dsimp only; (repeat' split) <;> simp [enterOff_timeLaw, h]⟩
  | dispatch =>
    refine ⟨_, rfl, ?_⟩
    split
    · exact h
    · dsimp only
      (repeat' split)
      · simpa using h
      · exact placeIn_timeLaw (by exact h) _ _
      · exact h
  | format | setPolicy | journalStatus | segmentInfo =>
    exact ⟨_, rfl, withJs_keeps timeHolds h _ fun e => by simp [timeHolds, h]⟩
  | openCursor => exact ⟨_, rfl, withCu_keeps timeHolds h _ fun e => by simp [timeHolds, h]⟩
  | seek =>
    refine ⟨_, rfl, withCu_keeps timeHolds h _ fun e => ?_⟩
    split
    · exact h
    · exact withCursor_keeps timeHolds _ e (by simp [timeHolds, h]) (by simp [timeHolds, h])
  | seekTime =>
    refine ⟨_, rfl, withCu_keeps timeHolds h _ fun e => ?_⟩
    split
    · exact withCursor_keeps timeHolds _ e (by simp [timeHolds, h]) (by simp [timeHolds, h])
    · exact h
  | fetch | count | cancel | close | cursorStatus =>
    exact ⟨_, rfl, withCu_keeps timeHolds h _ fun e =>
      withCursor_keeps timeHolds _ e (by simp [timeHolds, h]) (by simp [timeHolds, h])⟩
  | scanStep | tailTest =>
    exact ⟨_, rfl, withScan_keeps timeHolds h (by simp [timeHolds, h]) fun e sc => by split <;> simp [timeHolds, h]⟩
  | watchSet | watchRead | watchOff => exact ⟨_, rfl, withWu_keeps timeHolds h _ fun e => by simp [timeHolds, h]⟩
  | captureSet | nodeSet | nodeRead => exact ⟨_, rfl, withCp_keeps timeHolds h _ fun e => by simp [timeHolds, h]⟩
  | cmd | ack | mask | rspPop | winEnd => exact ⟨_, rfl, by simp [h]⟩
  | statusByte | rsp | win | sts => exact ⟨_, rfl, onBus_keeps timeHolds h (by simp [timeHolds, h])⟩
  | unknownPort =>
    refine ⟨_, rfl, ?_⟩
    split
    · exact h
    · exact onBus_keeps timeHolds h (by simp [timeHolds, h])
  | cuCommitNotice | reclaimNotice | cpCommitNotice | clearingEnd =>
    refine ⟨_, rfl, ?_⟩
    split
    · exact h
    · dsimp only
      (repeat' split) <;> simp [h]
  | followTimeout =>
    refine ⟨_, rfl, ?_⟩
    dsimp only
    (repeat' split) <;> simp [h]
  | append | boundaryEvent | wuCommitNotice | characterReceived | gapTimeout | idleTimeElapsed | acknowledgeWindowEnd
  | ackFrameStart | ackFrameEnd | holdFloorReport | auStopped | auEnded | resetRelease | vmainRise | vbatRise =>
    refine ⟨_, rfl, ?_⟩
    (repeat' split) <;> simp [h]

end

/-! ## The statements -/

/-- Settles O1: the two cases are the branches of `step`. -/
theorem stepRunsFrontCommand : Obligations.StepRunsFrontCommand := by
  unfold Obligations.StepRunsFrontCommand
  refine ⟨fun c s rest hpending => ?front, fun s hpending => ?tick⟩
  case front => simp only [step, hpending]
  case tick => simp only [step, hpending]

/-- Settles O5: a step is an oscillator tick or a command, and both keep the law. -/
theorem timeLawKept : Obligations.TimeLawKept := by
  unfold Obligations.TimeLawKept
  intro s t h hstep
  obtain ⟨hfront, htick⟩ := stepRunsFrontCommand
  cases hpending : s.pending with
  | nil =>
    obtain rfl := Host.Outcome.next.inj ((htick s hpending).symm.trans hstep)
    exact oscillatorTick_timeLaw h
  | cons c rest =>
    obtain ⟨u, hexec, hlaw⟩ := exec_timeLaw (s := { s with pending := rest }) h c
    obtain rfl := Host.Outcome.next.inj (hexec.symm.trans ((hfront c s rest hpending).symm.trans hstep))
    exact hlaw

end Sys2Proof.Machine
end

section
/-! SUPPORT. Match descriptors: their tests, the match test and the pruning test, each as what it says of the bits and the
stamps (R81 to R85), and the statement on them. -/

namespace Sys2Proof.Machine

/-! ## Sets as bits (R80) -/

theorem and_ne_zero_iff {w : Nat} (x y : BitVec w) :
    x &&& y ≠ 0 ↔ ∃ i, x.getLsbD i = true ∧ y.getLsbD i = true := by
  constructor
  · intro hne
    by_contra hnone
    refine hne (BitVec.eq_of_getLsbD_eq fun i _ => ?_)
    change _ = (0#w).getLsbD i
    rw [BitVec.getLsbD_and, BitVec.getLsbD_zero, Bool.eq_false_iff, ne_eq, Bool.and_eq_true]
    exact fun hi => hnone ⟨i, hi⟩
  · rintro ⟨i, hx, hy⟩ hzero
    have hi : (x &&& y).getLsbD i = true := by rw [BitVec.getLsbD_and, hx, hy, Bool.and_self]
    rw [hzero] at hi
    exact Bool.false_ne_true (BitVec.getLsbD_zero.symm.trans hi)

/-- Two values agree under a mask when they agree in each bit the mask has. -/
theorem and_eq_and_iff {w : Nat} (x y mask : BitVec w) :
    x &&& mask = y &&& mask ↔ ∀ i, mask.getLsbD i = true → x.getLsbD i = y.getLsbD i := by
  constructor
  · intro h i hi
    simpa [hi] using congrArg (fun v => v.getLsbD i) h
  · intro h
    refine BitVec.eq_of_getLsbD_eq fun i _ => ?_
    rw [BitVec.getLsbD_and, BitVec.getLsbD_and]
    cases hi : mask.getLsbD i
    · simp
    · rw [h i hi]

theorem getLsbD_or_single {w i : Nat} (x : BitVec w) (hi : i < w) : (x ||| (1#w <<< i)).getLsbD i = true := by
  simp [hi]

/-! ## The tests of a descriptor (R81) -/

/-- The descriptor that the first 22 bytes of a payload spell (R80). -/
def spelledDescriptor (l : List Byte) : Descriptor :=
  { sources := BitVec.ofNat 3 (rd8 l 0), classes := BitVec.ofNat 16 (rd16 l 1), nodes := BitVec.ofNat 8 (rd8 l 3),
    key := BitVec.ofNat 16 (rd16 l 4), care := BitVec.ofNat 16 (rd16 l 6), timeFrom := rdBound l 8,
    timeTo := rdBound l 15 }

/-- The tests of R81 on those bytes. -/
def descriptorOk (l : List Byte) : Prop :=
  rd8 l 0 ≤ 7 ∧ boundOk l 8 = true ∧ boundOk l 15 = true ∧
    ∀ a b, rdBound l 8 = some a → rdBound l 15 = some b → a.total ≤ b.total

theorem rdBound_eq_some_iff (l : List Byte) (i : Nat) (t : Stamp) :
    rdBound l i = some t ↔ rd8 l i = 1 ∧ rdStamp l (i + 1) = t := by
  simp [rdBound]

theorem boundOk_iff (l : List Byte) (i : Nat) :
    boundOk l i = true ↔ rd8 l i ≤ 1 ∧ (rd8 l i = 1 → rd16 l (i + 5) ≤ 32767) := by
  simp only [boundOk, Bool.and_eq_true, Bool.or_eq_true, decide_eq_true_eq, beq_iff_eq]
  omega

theorem parseDescriptor_eq_some_iff (l : List Byte) (d : Descriptor) :
    parseDescriptor l = some d ↔ descriptorOk l ∧ spelledDescriptor l = d := by
  unfold parseDescriptor descriptorOk spelledDescriptor
  cases rdBound l 8 <;> cases rdBound l 15 <;> simp [Stamp.le, and_assoc]

theorem parseDescriptor_eq_none_iff (l : List Byte) : parseDescriptor l = none ↔ ¬ descriptorOk l := by
  simp [Option.eq_none_iff_forall_ne_some, parseDescriptor_eq_some_iff]

theorem not_descriptorOk_iff (l : List Byte) : ¬ descriptorOk l ↔
    7 < rd8 l 0 ∨ 1 < rd8 l 8 ∨ 1 < rd8 l 15 ∨ (rd8 l 8 = 1 ∧ 32767 < rd16 l 13) ∨
      (rd8 l 15 = 1 ∧ 32767 < rd16 l 20) ∨
      (rd8 l 8 = 1 ∧ rd8 l 15 = 1 ∧ rd32 l 16 * 32768 + rd16 l 20 < rd32 l 9 * 32768 + rd16 l 13) := by
  have horder : (∀ a b, rdBound l 8 = some a → rdBound l 15 = some b → a.total ≤ b.total) ↔
      (rd8 l 8 = 1 → rd8 l 15 = 1 → (rdStamp l 9).total ≤ (rdStamp l 16).total) := by
    simp only [rdBound_eq_some_iff]
    refine ⟨fun h h8 h15 => h _ _ ⟨h8, rfl⟩ ⟨h15, rfl⟩, ?_⟩
    rintro h _ _ ⟨h8, rfl⟩ ⟨h15, rfl⟩
    exact h h8 h15
  rw [descriptorOk, boundOk_iff, boundOk_iff, horder]
  simp only [Stamp.total, rdStamp, Nat.reduceAdd]
  omega

/-! ## The match test (R82 to R84) -/

theorem Descriptor.accepts_iff (d : Descriptor) (source cls node : Nat) (key : BitVec 16) (stamp : Stamp) :
    d.accepts source cls node key stamp = true ↔
      d.sources.getLsbD source = true ∧ d.classes.getLsbD cls = true ∧ (source = 1 → d.nodes.getLsbD node = true) ∧
        (∀ i, d.care.getLsbD i = true → key.getLsbD i = d.key.getLsbD i) ∧
        (∀ t, d.timeFrom = some t → t.total ≤ stamp.total) ∧ ∀ t, d.timeTo = some t → stamp.total ≤ t.total := by
  simp only [Descriptor.accepts, Bool.and_eq_true, and_assoc]
  refine and_congr .rfl (and_congr .rfl (and_congr ?node (and_congr ?key (and_congr ?earliest ?latest))))
  case node => simp [imp_iff_not_or]
  case key => exact beq_iff_eq.trans (and_eq_and_iff key d.key d.care)
  case earliest => cases d.timeFrom <;> simp [Stamp.le]
  case latest => cases d.timeTo <;> simp [Stamp.le]

/-! ## The pruning test (R85) -/

theorem Descriptor.canHold_iff (d : Descriptor) (x : IndexEntry) :
    d.canHold x = true ↔
      (∃ i, x.sources.getLsbD i = true ∧ d.sources.getLsbD i = true) ∧
        (∃ i, x.classes.getLsbD i = true ∧ d.classes.getLsbD i = true) ∧
        (x.sources = 2 → ∃ i, x.nodes.getLsbD i = true ∧ d.nodes.getLsbD i = true) ∧
        (∀ t, d.timeFrom = some t → ∃ m, x.maxStamp = some m ∧ t.total ≤ m.total) ∧
        ∀ t, d.timeTo = some t → ∃ m, x.minStamp = some m ∧ m.total ≤ t.total := by
  simp only [Descriptor.canHold, Bool.and_eq_true, and_assoc]
  refine and_congr (bne_iff_ne.trans (and_ne_zero_iff _ _)) (and_congr (bne_iff_ne.trans (and_ne_zero_iff _ _))
    (and_congr ?nodes (and_congr ?earliest ?latest)))
  case nodes =>
    rw [← and_ne_zero_iff, Bool.or_eq_true, bne_iff_ne, bne_iff_ne, imp_iff_not_or]
  case earliest => cases d.timeFrom <;> cases x.maxStamp <;> simp [Stamp.le]
  case latest => cases d.timeTo <;> cases x.minStamp <;> simp [Stamp.le]

/-! ## A record joins an index entry (R33) -/

theorem le_latest (o : Option Stamp) (t : Stamp) : ∃ m, latest o t = some m ∧ t.total ≤ m.total := by
  cases o with
  | none => exact ⟨t, rfl, le_rfl⟩
  | some u =>
    by_cases h : t.le u = true
    · exact ⟨u, by simp [latest, h], by simpa [Stamp.le] using h⟩
    · exact ⟨t, by simp [latest, h], le_rfl⟩

theorem earliest_le (o : Option Stamp) (t : Stamp) : ∃ m, earliest o t = some m ∧ m.total ≤ t.total := by
  cases o with
  | none => exact ⟨t, rfl, le_rfl⟩
  | some u =>
    by_cases h : u.le t = true
    · exact ⟨u, by simp [earliest, h], by simpa [Stamp.le] using h⟩
    · exact ⟨t, by simp [earliest, h], le_rfl⟩

/-- A source set that is {CAPTURE} once a source has joined it was joined by CAPTURE. -/
theorem source_eq_one_of_or_single {x : BitVec 3} {source : Nat} (hs : source < 3) (h : x ||| (1#3 <<< source) = 2) :
    source = 1 := by
  have hbit := getLsbD_or_single x hs
  rw [h] at hbit
  interval_cases source
  · exact absurd hbit (by decide)
  · rfl
  · exact absurd hbit (by decide)

theorem Descriptor.canHold_add {d : Descriptor} {source cls node : Nat} {key : BitVec 16} {stamp : Stamp}
    (h : d.accepts source cls node key stamp = true) (x : IndexEntry) (seq : Nat) (unset : Bool) :
    d.canHold (x.add seq stamp cls source node unset) = true := by
  obtain ⟨hsource, hcls, hnode, -, hfrom, hto⟩ := (d.accepts_iff ..).1 h
  have hsource3 := BitVec.lt_of_getLsbD hsource
  refine (d.canHold_iff _).2 ⟨⟨source, getLsbD_or_single _ hsource3, hsource⟩,
    ⟨cls, getLsbD_or_single _ (BitVec.lt_of_getLsbD hcls), hcls⟩, fun honly => ?capture, fun t ht => ?latest,
    fun t ht => ?earliest⟩
  case capture =>
    have hone := source_eq_one_of_or_single hsource3 honly
    have hnodes : (x.add seq stamp cls source node unset).nodes = x.nodes ||| (1#8 <<< node) := if_pos hone
    rw [hnodes]
    exact ⟨node, getLsbD_or_single _ (BitVec.lt_of_getLsbD (hnode hone)), hnode hone⟩
  case latest =>
    obtain ⟨m, hm, hle⟩ := le_latest x.maxStamp stamp
    exact ⟨m, hm, (hfrom t ht).trans hle⟩
  case earliest =>
    obtain ⟨m, hm, hle⟩ := earliest_le x.minStamp stamp
    exact ⟨m, hm, hle.trans (hto t ht)⟩

/-! ## The statement on descriptors -/

/-- Settles O14: each test says what its lemma above says of it, and a record that joins an index entry leaves there a
member and a stamp by which the entry passes the pruning test. -/
theorem descriptorsSelectRecords : Obligations.DescriptorsSelectRecords := by
  unfold Obligations.DescriptorsSelectRecords
  refine ⟨fun l => ⟨(parseDescriptor_eq_none_iff l).trans (not_descriptorOk_iff l), fun d hd => ?fields⟩,
    Descriptor.accepts_iff, Descriptor.canHold_iff,
    fun d x seq source cls node key stamp unset h => Descriptor.canHold_add h x seq unset⟩
  case fields =>
    obtain ⟨⟨hsources, -⟩, rfl⟩ := (parseDescriptor_eq_some_iff l d).1 hd
    refine ⟨?_, Nat.mod_eq_of_lt (rd16_lt l 1), Nat.mod_eq_of_lt (rd8_lt l 3), Nat.mod_eq_of_lt (rd16_lt l 4),
      Nat.mod_eq_of_lt (rd16_lt l 6), rfl, rfl⟩
    exact Nat.mod_eq_of_lt (Nat.lt_succ_of_le hsources)

end Sys2Proof.Machine
end

section
/-! SUPPORT. The watches: what a commit notice and a boundary event do to one watch and to the WU (R89 to R93), the commands
in the WU's slot (R94 to R96), and the statements on both. -/

namespace Sys2Proof.Machine

/-! ## One watch (R88 to R93; log 46) -/

section

variable {w : Watch} {n : Fin 8} {c : Notice}

theorem Watch.hitBy_eq : w.hitBy n c =
    (w.armed && w.desc.acceptsNotice c && !(c.cls == 15 && c.key == BitVec.ofNat 16 (256 + n.val))) :=
  Bool.and_right_comm ..

theorem Watch.hitBy_of_off (h : w.armed = false) : w.hitBy n c = false := by simp [Watch.hitBy, h]

theorem Watch.boundary_of_off (k : Nat) (h : w.armed = false) : w.boundary k = w := by simp [Watch.boundary, h]

theorem Watch.boundary_of_counting (k : Nat) (ha : w.armed = true) (hr : w.remaining ≠ 0) : w.boundary k =
    { w with remaining := w.remaining - 1, silent := w.silent || w.runsOut, spared := false, met := w.meets k } := by
  simp [Watch.boundary, ha, hr]

theorem Watch.boundary_eq (k : Nat) : w.boundary k =
    if w.armed ∧ w.remaining ≠ 0 then
      { w with remaining := w.remaining - 1, silent := w.silent || w.runsOut, spared := false, met := w.meets k }
    else w := by
  simp [Watch.boundary]

theorem Watch.armed_of_hitBy (h : w.hitBy n c = true) : w.armed = true := by
  by_contra ha
  rw [Watch.hitBy_of_off (Bool.eq_false_iff.2 ha)] at h
  exact Bool.false_ne_true h

/-- A boundary event changes nothing that a hit depends on. -/
theorem Watch.hitBy_boundary (k : Nat) : (w.boundary k).hitBy n c = w.hitBy n c := by
  unfold Watch.boundary
  split <;> rfl

theorem Watch.notice_of_hit (b : Bool) (h : w.hitBy n c = true) : w.notice n c b = (w.hit c.seq b).noticeTaken :=
  congrArg Watch.noticeTaken (if_pos h)

/-- The silence remaining that a hit restarts, when no boundary event has met the notice. -/
theorem Watch.notice_of_unmet (b : Bool) (h : w.hitBy n c = true) (hm : w.met = []) :
    w.notice n c b = { w.hit c.seq b with remaining := w.period, met := [] } := by
  simp [Watch.notice_of_hit b h, Watch.noticeTaken, Watch.hit, hm]

/-- The commit first: the waiting boundary event takes one from the restarted silence, and does not end it (R93). -/
theorem Watch.boundary_notice (k : Nat) (h : w.hitBy n c = true) (hm : w.met = []) (hr : w.remaining ≠ 0)
    (hp : w.remaining ≤ w.period) : (w.notice n c true).boundary k =
      { w.hit c.seq false with
        remaining := w.period - 1, spared := false, met := if w.period = 1 ∨ k = 0 then [] else [k] } := by
  have hperiod : w.period ≠ 0 := by omega
  rw [Watch.notice_of_unmet true h hm, Watch.boundary_of_counting k (by exact Watch.armed_of_hitBy h) hperiod]
  have hspared : (w.remaining != 0) = true := bne_iff_ne.2 hr
  by_cases hone : w.period = 1
  · simp [Watch.runsOut, Watch.meets, Watch.hit, hone, hspared]
  · by_cases hk : k = 0 <;> simp [Watch.runsOut, Watch.meets, Watch.hit, hone, hk, hspared]

/-- The boundary event first, with silence remaining above 1: the hit restarts the silence at one less than the period
(R93). -/
theorem Watch.notice_boundary_of_longer (k : Nat) (h : w.hitBy n c = true) (hm : w.met = []) (hr : 1 < w.remaining) :
    (w.boundary (k + 1)).notice n c false =
      { w.hit c.seq false with
        remaining := w.period - 1, spared := false, met := if k = 0 then [] else [k] } := by
  rw [Watch.notice_of_hit false ((Watch.hitBy_boundary _).trans h),
    Watch.boundary_of_counting (k + 1) (Watch.armed_of_hitBy h) (by omega)]
  have hne : w.remaining ≠ 1 := by omega
  by_cases hk : k = 0 <;> simp [Watch.noticeTaken, Watch.hit, Watch.meets, hm, hne, hk]

/-- The boundary event first, with silence remaining 1: the silence ends, and the hit restarts it at the whole period
(R93). -/
theorem Watch.notice_boundary_of_last (k : Nat) (h : w.hitBy n c = true) (hr : w.remaining = 1) :
    (w.boundary k).notice n c false = { w.hit c.seq false with remaining := w.period, met := [] } := by
  rw [Watch.notice_of_hit false ((Watch.hitBy_boundary _).trans h),
    Watch.boundary_of_counting k (Watch.armed_of_hitBy h) (by omega)]
  simp [Watch.noticeTaken, Watch.hit, Watch.meets, hr]

end

/-! ## The happenings at the WU (R89 to R91) -/

section

variable {s : State} {c : Notice} {rest : List Notice}

/-- The state with this notice no longer waiting at the WU. -/
def withoutNotice (rest : List Notice) (s : State) : State := s.onWu (fun u => { u with notices := rest })

/-- The state with one boundary event less at the WU. -/
def withoutBoundary (s : State) : State := s.onWu (fun u => { u with boundaries := u.boundaries - 1 })

theorem exec_wuCommitNotice_of_cons (h : s.wu.notices = c :: rest) :
    exec .wuCommitNotice s = .next (watchCommit c (withoutNotice rest s)) := by
  simp only [exec, execWuCommitNotice, h, withoutNotice]

theorem exec_boundaryEvent_of_waiting (h : s.wu.boundaries ≠ 0) :
    exec .boundaryEvent s = .next (watchBoundary (withoutBoundary s)) :=
  congrArg _ (if_neg h)

/-- An event that may happen joins the flags when it does. -/
theorem latchIf_eq_if (b : Bool) (v : Event) (s : State) : latchIf b v s =
    { s with hp := { s.hp with events := if b then s.hp.events ||| (1#8 <<< v.member) else s.hp.events } } := by
  cases b <;> rfl

theorem watchCommit_eq (c : Notice) (s : State) : watchCommit c s =
    { s with
      wu := { s.wu with watches := Vector.ofFn (fun n => (s.wu.watches[n]).notice n c (s.wu.boundaries != 0)) }
      hp := { s.hp with
        events := if (fins 8).any (fun n => (s.wu.watches[n]).hitBy n c && (s.wu.watches[n]).interruptOn) then
            s.hp.events ||| 0x02
          else s.hp.events } } :=
  latchIf_eq_if ..

theorem getElem_watchCommit (c : Notice) (s : State) (n : Fin 8) :
    (watchCommit c s).wu.watches[n] = (s.wu.watches[n]).notice n c (s.wu.boundaries != 0) := by
  simp [watchCommit_eq]

theorem getElem_watchBoundary (s : State) (n : Fin 8) :
    (watchBoundary s).wu.watches[n] = (s.wu.watches[n]).boundary s.wu.notices.length := by
  simp [watchBoundary]

theorem foldl_requestSystem_of_room (l : List SysRequest) (s : State) (hh : s.au.holdup = .idle)
    (hroom : s.au.systemLane.length + l.length ≤ 4) : l.foldl (fun s q => requestSystem q s) s =
      s.onAu (fun a => { a with systemLane := a.systemLane ++ l }) := by
  induction l generalizing s with
  | nil => simp [State.onAu]
  | cons q l ih =>
    rw [List.length_cons] at hroom
    have hrest := ih (s.onAu fun a => { a with systemLane := a.systemLane ++ [q] }) hh (by simp; omega)
    rw [List.foldl_cons, requestSystem_of_room q s hh (by omega), hrest]
    simp [State.onAu]

/-- A boundary event when the system lane has room for its SILENT requests (R46, R91). -/
theorem watchBoundary_of_room (s : State) (hh : s.au.holdup = .idle)
    (hroom : s.au.systemLane.length + (silentRequests s.wu.watches).length ≤ 4) : watchBoundary s =
      { s with
        wu := { s.wu with watches := s.wu.watches.map (Watch.boundary s.wu.notices.length) }
        au := { s.au with systemLane := s.au.systemLane ++ silentRequests s.wu.watches }
        hp := { s.hp with
          events := if (fins 8).any (fun n => (s.wu.watches[n]).runsOut && (s.wu.watches[n]).interruptOn) then
              s.hp.events ||| 0x04
            else s.hp.events } } := by
  have hlane := foldl_requestSystem_of_room (silentRequests s.wu.watches)
    (s.onWu fun u => { u with watches := u.watches.map (Watch.boundary u.notices.length) }) hh hroom
  unfold watchBoundary
  dsimp only
  rw [hlane]
  exact latchIf_eq_if ..

/-! ## A commit notice and a boundary event that wait together (R93) -/

theorem commit_then_boundary (n : Fin 8) (hnotices : s.wu.notices = c :: rest) (hone : s.wu.boundaries = 1) :
    ∃ t', exec .wuCommitNotice s = .next t' ∧ ∃ t, exec .boundaryEvent t' = .next t ∧
      t'.wu.watches[n] = (s.wu.watches[n]).notice n c true ∧
      t.wu.watches[n] = ((s.wu.watches[n]).notice n c true).boundary rest.length := by
  have hfirst : (watchCommit c (withoutNotice rest s)).wu.watches[n] = (s.wu.watches[n]).notice n c true := by
    rw [getElem_watchCommit]
    simp [withoutNotice, hone]
  refine ⟨_, exec_wuCommitNotice_of_cons hnotices, _, exec_boundaryEvent_of_waiting ?_, hfirst, ?_⟩
  · simp [watchCommit_eq, withoutNotice, hone]
  · rw [getElem_watchBoundary, ← hfirst]
    simp [watchCommit_eq, withoutBoundary, withoutNotice]

theorem boundary_then_commit (n : Fin 8) (hnotices : s.wu.notices = c :: rest) (hone : s.wu.boundaries = 1) :
    ∃ u', exec .boundaryEvent s = .next u' ∧ ∃ u, exec .wuCommitNotice u' = .next u ∧
      u'.wu.watches[n] = (s.wu.watches[n]).boundary (rest.length + 1) ∧
      u.wu.watches[n] = ((s.wu.watches[n]).boundary (rest.length + 1)).notice n c false := by
  have hfirst : (watchBoundary (withoutBoundary s)).wu.watches[n] =
      (s.wu.watches[n]).boundary (rest.length + 1) := by
    rw [getElem_watchBoundary]
    simp [withoutBoundary, hnotices]
  refine ⟨_, exec_boundaryEvent_of_waiting (by simp [hone]), _, exec_wuCommitNotice_of_cons (c := c) (rest := rest) ?_,
    hfirst, ?_⟩
  · simp [watchBoundary, withoutBoundary, hnotices]
  · rw [getElem_watchCommit, ← hfirst]
    simp [watchBoundary, withoutNotice, withoutBoundary, hone]

end

/-! ## The statement on the happenings -/

theorem silentRequests_eq (ws : Vector Watch 8) : silentRequests ws =
    ((fins 8).filter (fun n => (ws[n]).armed && (ws[n]).remaining == 1 && !(ws[n]).spared)).map (fun n =>
      { kind := .silent, payload := [1, byte n.val] ++ be32 ((ws[n]).last.getD 0) }) := rfl

theorem Watch.meets_length (w : Watch) (l : List Notice) : w.meets l.length =
    if w.remaining = 1 then [] else if l = [] then w.met else w.met ++ [l.length] := by
  simp only [Watch.meets, List.length_eq_zero_iff]

/-- Settles O16: each watch takes its own step, `Watch.notice` or `Watch.boundary`, and where the two happenings meet, what
they do in either order is `Watch.boundary_notice`, `Watch.notice_boundary_of_longer` and `Watch.notice_boundary_of_last`. -/
theorem watchesTakeCommitsAndBoundaries : Obligations.WatchesTakeCommitsAndBoundaries := by
  unfold Obligations.WatchesTakeCommitsAndBoundaries
  intro hits
  have hhits (s : State) (c : Notice) (n : Fin 8) : hits s c n = (s.wu.watches[n]).hitBy n c := Watch.hitBy_eq.symm
  simp only [hhits]
  refine ⟨fun s c rest hnotices => ?commit, fun s hwaits hidle hroom => ?boundary,
    fun s c rest n hnotices hone hhit hmet hle => ?meet⟩
  case commit =>
    refine ⟨_, exec_wuCommitNotice_of_cons hnotices, by rw [watchCommit_eq]; rfl, fun n => ?_,
      by rw [watchCommit_eq]; rfl⟩
    rw [getElem_watchCommit]
    rfl
  case boundary =>
    have hlane : s.au.systemLane.length + (silentRequests s.wu.watches).length ≤ 4 := by
      rw [silentRequests_eq, List.length_map]
      exact hroom
    have hboundary := watchBoundary_of_room (withoutBoundary s) hidle hlane
    refine ⟨_, exec_boundaryEvent_of_waiting (Nat.ne_of_gt hwaits), by rw [hboundary]; rfl, fun n => ?_, ?_⟩
    · rw [getElem_watchBoundary, Watch.boundary_eq]
      simp only [withoutBoundary, State.onWu_wu, Watch.meets_length]
      rfl
    · rw [hboundary, List.any_filter]
      rfl
  case meet =>
    obtain ⟨t', htake, t, hthen, ht', ht⟩ := commit_then_boundary n hnotices hone
    obtain ⟨u', hevent, u, hlast, hu', hu⟩ := boundary_then_commit n hnotices hone
    refine ⟨t, t', u, u', htake, hthen, hevent, hlast, ?_⟩
    rw [ht, hu, ht', hu']
    generalize s.wu.watches[n] = w at *
    have harmed := Watch.armed_of_hitBy hhit
    refine ⟨fun hlonger => ?_, fun hlast => ?_⟩
    · have hperiod : ¬ w.period = 1 := by omega
      rw [Watch.boundary_notice _ hhit hmet (by omega) hle, Watch.notice_boundary_of_longer _ hhit hmet hlonger]
      refine ⟨?_, rfl, rfl⟩
      simp only [hperiod, false_or]
    · rw [Watch.boundary_notice _ hhit hmet (by omega) hle, Watch.notice_of_unmet _ hhit hmet,
        Watch.notice_boundary_of_last _ hhit hlast, Watch.boundary_of_counting _ harmed (by omega)]
      refine ⟨⟨rfl, rfl, rfl⟩, by simp [hlast], fun hspared => ?_, rfl, rfl⟩
      simp [Watch.runsOut, harmed, hlast, hspared]

end Sys2Proof.Machine
end

section
/-! SUPPORT. The commands in the WU's slot: WATCH_SET, WATCH_READ and WATCH_OFF (R94 to R96, R199). -/

namespace Sys2Proof.Machine

section

variable {s : State} {e : Entry} {n : Fin 8}

/-! ## Taking a command (5.7) -/

theorem withWu_of_slot {o : Nat} {op : Byte} (f : Entry → State → State) (hslot : s.wu.slot = some e)
    (hop : e.opcode = op) (ho : op.toNat = o) : withWu o f s = f e s := by
  subst hop
  unfold withWu
  rw [hslot]
  exact if_pos ho

theorem Entry.watch_of_param (h : e.param 0 = n.val) : e.watch = some n := by
  simp [Entry.watch, h]

theorem Entry.watch_of_high (h : 7 < e.param 0) : e.watch = none := dif_neg (by omega)

theorem Entry.not_high_of_watch (h : e.watch = some n) : ¬ 7 < e.param 0 := by
  intro hhigh
  simp [Entry.watch_of_high hhigh] at h

/-! ## The commands (R94 to R96) -/

theorem watchSet_of_good {d : Descriptor} (hn : e.param 0 = n.val) (h1 : e.param 1 ≤ 7) (hl : e.payload.length = 22)
    (hd : parseDescriptor e.payload = some d) : watchSet e s =
      answerWu e .done [] (s.onWu (Wu.onWatch n (fun _ => Watch.armedWith (e.param 1) (e.param16 2) d))) := by
  have htests : ¬ (7 < e.param 1 ∨ e.payload.length ≠ 22) := by omega
  simp only [watchSet, Entry.watch_of_param hn, htests, if_false, hd]

theorem watchSet_of_bad
    (h : 7 < e.param 0 ∨ 7 < e.param 1 ∨ e.payload.length ≠ 22 ∨ parseDescriptor e.payload = none) :
    watchSet e s = answerWu e .badParam [] s := by
  unfold watchSet
  cases hn : e.watch with
  | none => rfl
  | some n =>
    have hlow := Entry.not_high_of_watch hn
    by_cases htests : 7 < e.param 1 ∨ e.payload.length ≠ 22
    · exact if_pos htests
    · have hd : parseDescriptor e.payload = none := by tauto
      simp only [htests, if_false, hd]

theorem watchRead_of_good (hn : e.param 0 = n.val) (h1 : e.param 1 ≤ 1) (hp : e.payload = []) : watchRead e s =
    answerWu e .done (s.wu.watches[n]).fields (if e.param 1 = 1 then s.onWu (Wu.onWatch n Watch.cleared) else s) := by
  have htests : ¬ (1 < e.param 1 ∨ e.payload ≠ []) := by simp [hp, h1]
  simp only [watchRead, Entry.watch_of_param hn, htests, if_false]

theorem watchRead_of_bad (h : 7 < e.param 0 ∨ 1 < e.param 1 ∨ e.payload ≠ []) :
    watchRead e s = answerWu e .badParam [] s := by
  unfold watchRead
  cases hn : e.watch with
  | none => rfl
  | some n => exact if_pos (h.resolve_left (Entry.not_high_of_watch hn))

theorem watchOff_of_good (hn : e.param 0 = n.val) (hp : e.payload = []) : watchOff e s =
    answerWu e .done [] (s.onWu (Wu.onWatch n (fun w => { w with armed := false, remaining := 0 }))) := by
  simp only [watchOff, Entry.watch_of_param hn, hp, ne_eq, not_true_eq_false, if_false]

theorem watchOff_of_bad (h : 7 < e.param 0 ∨ e.payload ≠ []) : watchOff e s = answerWu e .badParam [] s := by
  unfold watchOff
  cases hn : e.watch with
  | none => rfl
  | some n => exact if_pos (h.resolve_left (Entry.not_high_of_watch hn))

/-- The fields of WATCH_READ, with the flag byte as a sum of its bits (R95). -/
theorem Watch.fields_eq (w : Watch) : w.fields =
    [byte (w.countOn.toNat + 2 * w.interruptOn.toNat + 4 * w.latchOn.toNat + 8 * w.first.isSome.toNat
        + 16 * w.last.isSome.toNat + 32 * w.silent.toNat + 128 * w.armed.toNat)]
      ++ be16 w.hits ++ be32 (w.first.getD 0) ++ be32 (w.last.getD 0) ++ be16 w.remaining := by
  have hflags : flagBits [w.countOn, w.interruptOn, w.latchOn, w.first.isSome, w.last.isSome, w.silent, false, w.armed] =
      w.countOn.toNat + 2 * w.interruptOn.toNat + 4 * w.latchOn.toNat + 8 * w.first.isSome.toNat
        + 16 * w.last.isSome.toNat + 32 * w.silent.toNat + 128 * w.armed.toNat := by
    simp only [flagBits, List.foldr_cons, List.foldr_nil, Bool.toNat_false]
    ring
  rw [Watch.fields, hflags]
  rfl

end

/-! ## The statement on the watch commands -/

/-- Settles O15: the command in the slot is taken, and each clause is the branch of its meaning that the operands choose. -/
theorem watchCommandsAnswer : Obligations.WatchCommandsAnswer := by
  unfold Obligations.WatchCommandsAnswer
  refine ⟨fun s e hslot => ?commands, fun w n c hoff => ⟨Watch.hitBy_of_off hoff, fun k => Watch.boundary_of_off k hoff,
    fun hr => by rw [← hoff, ← hr]⟩⟩
  case commands =>
    have hset (h : e.opcode = 0x50) : exec .watchSet s = .next (watchSet e s) :=
      congrArg _ (withWu_of_slot watchSet hslot h rfl)
    have hread (h : e.opcode = 0x51) : exec .watchRead s = .next (watchRead e s) :=
      congrArg _ (withWu_of_slot watchRead hslot h rfl)
    have hoff (h : e.opcode = 0x52) : exec .watchOff s = .next (watchOff e s) :=
      congrArg _ (withWu_of_slot watchOff hslot h rfl)
    refine ⟨fun n d hop hn h1 hl hd => ?_, fun hop hbad => ?_, fun n hop hn hp h1 => ?_, fun hop hbad => ?_,
      fun n hop hn hp => ?_, fun hop hbad => ?_⟩
    · rw [hset hop, watchSet_of_good hn h1 hl hd]
      rfl
    · rw [hset hop, watchSet_of_bad hbad]
      rfl
    · rw [hread hop, watchRead_of_good hn h1 hp, Watch.fields_eq]
      split <;> rfl
    · rw [hread hop, watchRead_of_bad hbad]
      rfl
    · rw [hoff hop, watchOff_of_good hn hp]
      rfl
    · rw [hoff hop, watchOff_of_bad hbad]
      rfl

end Sys2Proof.Machine
end

section
/-! SUPPORT. A scan in flight: its ends, each as what is written before the hold floor report, and its steps, by what the
scan reads (R102 to R105, R110, R112, R113). -/

namespace Sys2Proof.Machine

section

variable {s : State} {e : Entry} {sc : Scan}

/-! ## The happenings of a scan whose segment is in journal order -/

theorem exec_scanStep_of_scan (hslot : s.cu.slot = some { entry := e, scan := some sc }) (hleft : sc.left = false) :
    exec .scanStep s =
      .next (if (s.cu.cursors[sc.cursor]).backward then stepBackward e sc s else stepForward e sc s) := by
  simp only [exec, execScanStep, withScan, hslot, hleft]
  rfl

theorem exec_tailTest_of_scan (hslot : s.cu.slot = some { entry := e, scan := some sc }) (hleft : sc.left = false)
    (hforward : (s.cu.cursors[sc.cursor]).backward = false) : exec .tailTest s = .next (tailTest e sc s) := by
  simp only [exec, execTailTest, withScan, hslot, hleft, hforward]
  rfl


/-- A scan in journal order is still so in the segment it goes on to. -/
theorem Scan.cross_eq (hleft : sc.left = false) (g : Seg) (u : Option Nat) :
    ({ sc with seg := g, unit := u, left := false } : Scan) = { sc with seg := g, unit := u } := by
  rw [hleft]

/-! ## The ends of a scan (R105, R110, R112, R113, R123, R124) -/

theorem vmod_vmod {α : Type} {n : Nat} (v : Vector α n) (i : Fin n) (f g : α → α) :
    vmod (vmod v i f) i g = v.set i.val (g (f v[i])) i.isLt := by
  simp [vmod]

theorem endScan_eq (pos : Nat) (r : Result) (limited : Bool) (fields : Nat → List Byte) :
    endScan e sc pos r limited fields s = reportFloor s.cu.floor
      { s with
        cu := { s.cu with
          slot := none
          cursors := s.cu.cursors.set sc.cursor { s.cu.cursors[sc.cursor] with
            state := .ready, position := pos
            lost := if sc.owed = 0 then (s.cu.cursors[sc.cursor]).lost
              else min ((s.cu.cursors[sc.cursor]).lost + sc.owed) 4294967295 } }
        hp := Hp.post
          { tag := e.tag, result := r, lost := min (sc.skipped + sc.owed) 4294967295 != 0, limited := limited
            fields := fields (min (sc.skipped + sc.owed) 4294967295) }
          (if sc.owed = 0 then s.hp else { s.hp with events := s.hp.events ||| 0x20 }) } := by
  unfold endScan withFloor reportLoss
  by_cases howed : sc.owed = 0
  · simp only [howed, if_true]
    rfl
  · simp only [howed, if_false]
    simp only [onCursor, Cu.onCursor, State.onCu, latch, State.onHp, vmod_vmod]
    rfl

/-- The end of a scan that owes no loss. -/
theorem endScan_of_nothing_owed (howed : sc.owed = 0) (hskip : sc.skipped ≤ 4294967295) (pos : Nat) (r : Result)
    (limited : Bool) (fields : Nat → List Byte) : endScan e sc pos r limited fields s = reportFloor s.cu.floor
      { s with
        cu := { s.cu with
          slot := none
          cursors := s.cu.cursors.set sc.cursor { s.cu.cursors[sc.cursor] with state := .ready, position := pos } }
        hp := s.hp.post
          { tag := e.tag, result := r, lost := sc.skipped != 0, limited := limited, fields := fields sc.skipped } } := by
  have hskipped : min (sc.skipped + sc.owed) 4294967295 = sc.skipped := by omega
  rw [endScan_eq, hskipped]
  simp only [howed, if_true]

theorem endCount_eq (limited : Bool) : endCount e sc limited s = reportFloor s.cu.floor
      { s with
        cu := { s.cu with
          slot := none
          cursors := s.cu.cursors.set sc.cursor { s.cu.cursors[sc.cursor] with
            state := .ready
            lost := if sc.owed = 0 then (s.cu.cursors[sc.cursor]).lost
              else min ((s.cu.cursors[sc.cursor]).lost + sc.owed) 4294967295 } }
        hp := Hp.post
          { tag := e.tag, result := .done, lost := min (sc.skipped + sc.owed) 4294967295 != 0, limited := limited
            fields := be32 sc.found ++ be32 (min (sc.skipped + sc.owed) 4294967295) }
          (if sc.owed = 0 then s.hp else { s.hp with events := s.hp.events ||| 0x20 }) } :=
  endScan_eq ..

theorem park_eq (tail : Nat) : park e sc tail s = reportFloor s.cu.floor
    { s with
      cu := { s.cu with
        slot := none
        cursors := s.cu.cursors.set sc.cursor { s.cu.cursors[sc.cursor] with
          state := .parked, position := tail, fetchTag := some e.tag, fetchLost := sc.skipped != 0
          beatsLeft := if (s.cu.cursors[sc.cursor]).timeout = 0 then none
            else some (s.cu.cursors[sc.cursor]).timeout } } } := rfl

theorem atTail_of_fetch (hk : sc.kind = .fetch) : atTail e sc s =
    if (s.cu.cursors[sc.cursor]).follow then park e sc (tailSeq s) s
    else endScan e sc (tailSeq s) .endReached false (positionFields (tailSeq s)) s := by
  simp only [atTail, hk]

theorem atTail_of_count (hk : sc.kind = .count) : atTail e sc s = endCount e sc false s := by
  simp only [atTail, hk]

theorem atHead_of_fetch (before : Nat) (hk : sc.kind = .fetch) : atHead e sc before s =
    endScan e sc before .endReached false (positionFields before) s := by
  simp only [atHead, hk]

theorem atHead_of_count (before : Nat) (hk : sc.kind = .count) : atHead e sc before s = endCount e sc false s := by
  simp only [atHead, hk]

/-! ## What a FETCH or COUNT passes over and what lies in its range (R85, R102, R104) -/

theorem scanPrunes_eq_not_canHold (hk : sc.kind = .fetch ∨ sc.kind = .count) (x : Cursor) (entry : IndexEntry) :
    scanPrunes sc x entry = !x.desc.canHold entry := by
  rcases hk with hk | hk <;> simp only [scanPrunes, hk]

theorem scanPrunes_of_cannotHold (hk : sc.kind = .fetch ∨ sc.kind = .count) {x : Cursor} {entry : IndexEntry}
    (hcan : x.desc.canHold entry = false) : scanPrunes sc x entry = true := by
  rw [scanPrunes_eq_not_canHold hk, hcan, Bool.not_false]

theorem scanPrunes_of_canHold (hk : sc.kind = .fetch ∨ sc.kind = .count) {x : Cursor} {entry : IndexEntry}
    (hcan : x.desc.canHold entry = true) : scanPrunes sc x entry = false := by
  rw [scanPrunes_eq_not_canHold hk, hcan, Bool.not_true]

theorem inRange_forward_iff (hk : sc.kind = .fetch ∨ sc.kind = .count) (seq : Nat) :
    inRange sc false seq = true ↔ sc.pos ≤ seq := by
  rcases hk with hk | hk <;> simp [inRange, hk]

theorem inRange_backward_iff (hk : sc.kind = .fetch ∨ sc.kind = .count) (seq : Nat) :
    inRange sc true seq = true ↔ seq ≤ sc.pos := by
  rcases hk with hk | hk <;> simp [inRange, hk]

theorem atOpenEnd_iff (m : Memory) (g : Seg) (u : Nat) :
    atOpenEnd m g u = true ↔ placeState m g u ≠ .committed ∧ placeState m g u ≠ .void := by
  unfold atOpenEnd
  cases placeState m g u <;> simp

/-! ## A record in range (R105, R110, R112) -/

theorem examine_of_fetch_unmatched (u : Nat) (next : Onward) (hk : sc.kind = .fetch)
    (hmiss : (s.cu.cursors[sc.cursor]).desc.acceptsStored (stored s.mem sc.seg u) = false) : examine e sc u next s =
      if sc.examined + 1 = (s.cu.cursors[sc.cursor]).budget then
        endScan e sc next.pos .limit false (positionFields next.pos) s
      else setScan e { sc with pos := next.pos, unit := some next.unit, examined := sc.examined + 1 } s := by
  simp only [examine, hk, hmiss]
  rfl

/-- A COUNT's scan past a record in range, which it counts when the record matches (R112). -/
def countOnward (sc : Scan) (u : Nat) (next : Onward) (s : State) : Scan :=
  { sc with
    pos := next.pos, unit := some next.unit, examined := sc.examined + 1
    found := if (s.cu.cursors[sc.cursor]).desc.acceptsStored (stored s.mem sc.seg u) then sc.found + 1 else sc.found }

theorem examine_of_count (u : Nat) (next : Onward) (hk : sc.kind = .count) : examine e sc u next s =
    if sc.examined + 1 = (s.cu.cursors[sc.cursor]).budget then endCount e (countOnward sc u next s) true s
    else setScan e (countOnward sc u next s) s := by
  simp only [examine, countOnward, hk]

theorem examine_of_search (u : Nat) (next : Onward) (hk : sc.kind = .fetch ∨ sc.kind = .count)
    (hmiss : sc.kind = .fetch → (s.cu.cursors[sc.cursor]).desc.acceptsStored (stored s.mem sc.seg u) = false) :
    examine e sc u next s =
      if sc.kind = .count then
        if sc.examined + 1 = (s.cu.cursors[sc.cursor]).budget then endCount e (countOnward sc u next s) true s
        else setScan e (countOnward sc u next s) s
      else if sc.examined + 1 = (s.cu.cursors[sc.cursor]).budget then
        endScan e sc next.pos .limit false (positionFields next.pos) s
      else setScan e { sc with pos := next.pos, unit := some next.unit, examined := sc.examined + 1 } s := by
  rcases hk with hk | hk
  · have hfetch : ¬ sc.kind = .count := by rw [hk]; exact nofun
    rw [examine_of_fetch_unmatched u next hk (hmiss hk), if_neg hfetch]
  · rw [examine_of_count u next hk, if_pos hk]

/-! ## The steps of a forward scan (R102, R103) -/

theorem stepForward_of_pruned (hu : sc.unit = none) (hf : sc.seg ≠ s.js.filling)
    (hp : scanPrunes sc (s.cu.cursors[sc.cursor]) s.js.index[sc.seg] = true) :
    stepForward e sc s = setScan e { sc with seg := sc.seg + 1, left := false } s := by
  simp only [stepForward, hu, hf, hp, if_true, if_false]

theorem stepForward_of_held (hu : sc.unit = none) (hf : sc.seg ≠ s.js.filling)
    (hp : scanPrunes sc (s.cu.cursors[sc.cursor]) s.js.index[sc.seg] = false) :
    stepForward e sc s = setScan e { sc with unit := some 1 } s := by
  simp only [stepForward, hu, hf, hp, if_false, Bool.false_eq_true]

theorem stepForward_of_place {u : Nat} (hu : sc.unit = some u)
    (hend : ¬ (sc.seg = s.js.filling ∧ atOpenEnd s.mem sc.seg u = true)) : stepForward e sc s = readForward e sc u s := by
  simp only [stepForward, hu]
  exact if_neg hend

theorem readForward_of_void {u : Nat} (hst : placeState s.mem sc.seg u = .void) : readForward e sc u s =
    setScan e { sc with unit := some (u + (stored s.mem sc.seg u).size) } s := by
  simp only [readForward, hst]

theorem readForward_of_free {u : Nat} (hst : placeState s.mem sc.seg u = .free) : readForward e sc u s =
    setScan e { sc with seg := sc.seg + 1, unit := none, left := false } s := by
  simp only [readForward, hst]

theorem readForward_of_committed {u : Nat} (hst : placeState s.mem sc.seg u = .committed) : readForward e sc u s =
    if inRange sc false (stored s.mem sc.seg u).seq then
      examine e sc u
        { pos := (stored s.mem sc.seg u).seq + 1, unit := u + (stored s.mem sc.seg u).size } s
    else setScan e { sc with unit := some (u + (stored s.mem sc.seg u).size) } s := by
  simp only [readForward, hst]

/-! ## The steps of a backward scan (R104) -/

theorem stepBackward_of_pruned (hu : sc.unit = none)
    (hp : scanPrunes sc (s.cu.cursors[sc.cursor]) s.js.index[sc.seg] = true) :
    stepBackward e sc s = leaveBackward e sc s := by
  simp only [stepBackward, hu, hp, if_true]

theorem stepBackward_of_held (hu : sc.unit = none)
    (hp : scanPrunes sc (s.cu.cursors[sc.cursor]) s.js.index[sc.seg] = false) :
    stepBackward e sc s = setScan e { sc with unit := some 256 } s := by
  simp only [stepBackward, hu, hp, if_false, Bool.false_eq_true]

theorem stepBackward_of_first {u : Nat} (hu : sc.unit = some u) (hv : lastBelow s.mem sc.seg u = none) :
    stepBackward e sc s = leaveBackward e sc s := by
  simp only [stepBackward, hu, hv]

theorem stepBackward_of_record {u v : Nat} (hu : sc.unit = some u) (hv : lastBelow s.mem sc.seg u = some v) :
    stepBackward e sc s =
      if (stored s.mem sc.seg v).state = .committed ∧ inRange sc true (stored s.mem sc.seg v).seq then
        examine e sc v { pos := (stored s.mem sc.seg v).seq - 1, unit := v } s
      else setScan e { sc with unit := some v } s := by
  simp only [stepBackward, hu, hv]

theorem leaveBackward_of_search (hk : sc.kind = .fetch ∨ sc.kind = .count) : leaveBackward e sc s =
    if sc.seg ≠ s.js.head then setScan e { sc with seg := sc.seg - 1, unit := none, left := false } s
    else if sc.kind = .fetch then endScan e sc (headSeq s - 1) .endReached false (positionFields (headSeq s - 1)) s
    else endCount e sc false s := by
  rw [ite_not]
  refine if_congr .rfl ?_ rfl
  rcases hk with hk | hk
  · rw [atHead_of_fetch _ hk, if_pos hk]
  · rw [atHead_of_count _ hk, if_neg (by rw [hk]; exact nofun)]

/-! ## The tail test (R103) -/

theorem tailTest_of_sealed_entry (hu : sc.unit = none) (hf : sc.seg ≠ s.js.filling) : tailTest e sc s = s := by
  simp only [tailTest, hu]
  exact if_pos hf

theorem tailTest_of_pruned (hu : sc.unit = none) (hf : sc.seg = s.js.filling)
    (hp : scanPrunes sc (s.cu.cursors[sc.cursor]) s.js.index[sc.seg] = true) :
    tailTest e sc s = atTail e sc s := by
  simp only [tailTest, hu, hp, if_true]
  exact if_neg (not_not_intro hf)

theorem tailTest_of_held (hu : sc.unit = none) (hf : sc.seg = s.js.filling)
    (hp : scanPrunes sc (s.cu.cursors[sc.cursor]) s.js.index[sc.seg] = false) :
    tailTest e sc s = setScan e { sc with unit := some 1 } s := by
  simp only [tailTest, hu, hp, if_false, Bool.false_eq_true]
  exact if_neg (not_not_intro hf)

theorem tailTest_of_tail {u : Nat} (hu : sc.unit = some u) (hf : sc.seg = s.js.filling)
    (hend : atOpenEnd s.mem sc.seg u = true) : tailTest e sc s = atTail e sc s := by
  simp only [tailTest, hu]
  exact if_pos ⟨hf, hend⟩

theorem tailTest_of_place {u : Nat} (hu : sc.unit = some u)
    (hend : ¬ (sc.seg = s.js.filling ∧ atOpenEnd s.mem sc.seg u = true)) : tailTest e sc s = readForward e sc u s := by
  simp only [tailTest, hu]
  exact if_neg hend

end

/-! ## The statement on the steps that pass over -/

/-- Settles O38: each clause is the branch of the step that what the scan reads chooses. -/
theorem scanStepsPassOver : Obligations.ScanStepsPassOver := by
  unfold Obligations.ScanStepsPassOver
  intro s e sc hslot hleft hkind x skipped goes ends counted leaves examined
  have hstep := exec_scanStep_of_scan hslot hleft
  have hbackward (h : x.backward = true) : exec .scanStep s = .next (stepBackward e sc s) :=
    hstep.trans (congrArg _ (if_pos h))
  have hforward (h : x.backward = false) : exec .scanStep s = .next (stepForward e sc s) :=
    hstep.trans (congrArg _ (if_neg (Bool.eq_false_iff.1 h)))
  have hleaves : .next (leaveBackward e sc s) = leaves := by
    rw [leaveBackward_of_search hkind, Scan.cross_eq hleft, apply_ite Host.Outcome.next, apply_ite Host.Outcome.next,
      endScan_eq, endCount_eq]
    rfl
  have hexamined (v pos unit : Nat)
      (hmiss : sc.kind = .fetch → x.desc.acceptsStored (stored s.mem sc.seg v) = false) :
      .next (examine e sc v { pos := pos, unit := unit } s) = examined v pos unit := by
    rw [examine_of_search v _ hkind hmiss, apply_ite Host.Outcome.next, apply_ite Host.Outcome.next,
      apply_ite Host.Outcome.next, endScan_eq, endCount_eq]
    rfl
  refine ⟨fun hu hcan => ⟨fun hb hf => ?forwardPruned, fun hb => ?backwardPruned⟩,
    fun hu hcan => ⟨fun hb hf => ?forwardHeld, fun hb => ?backwardHeld⟩,
    fun u hu hb => ⟨fun hst => ?forwardPassed, fun hst hf => ?forwardFree, fun hst hpos hmiss => ?forwardExamined⟩,
    fun u hu hb => ⟨fun hv => ?backwardFirst, fun v hv =>
      ⟨fun hst => ?backwardPassed, fun hst hpos hmiss => ?backwardExamined⟩⟩⟩
  case forwardPruned =>
    rw [hforward hb, stepForward_of_pruned hu hf (scanPrunes_of_cannotHold hkind hcan), Scan.cross_eq hleft]
    rfl
  case backwardPruned =>
    rw [hbackward hb, stepBackward_of_pruned hu (scanPrunes_of_cannotHold hkind hcan), hleaves]
  case forwardHeld =>
    rw [hforward hb, stepForward_of_held hu hf (scanPrunes_of_canHold hkind hcan)]
    rfl
  case backwardHeld =>
    rw [hbackward hb, stepBackward_of_held hu (scanPrunes_of_canHold hkind hcan)]
    rfl
  case forwardPassed =>
    rcases hst with hst | ⟨hst, hpos⟩
    · rw [hforward hb, stepForward_of_place hu (by simp [atOpenEnd_iff, hst]), readForward_of_void hst]
      rfl
    · rw [hforward hb, stepForward_of_place hu (by simp [atOpenEnd_iff, hst]), readForward_of_committed hst,
        if_neg (by rw [inRange_forward_iff hkind]; exact Nat.not_le.2 hpos)]
      rfl
  case forwardFree =>
    rw [hforward hb, stepForward_of_place hu (fun h => hf h.1), readForward_of_free hst, Scan.cross_eq hleft]
    rfl
  case forwardExamined =>
    rw [hforward hb, stepForward_of_place hu (by simp [atOpenEnd_iff, hst]), readForward_of_committed hst,
      if_pos ((inRange_forward_iff hkind _).2 hpos), hexamined _ _ _ hmiss]
  case backwardFirst =>
    rw [hbackward hb, stepBackward_of_first hu hv, hleaves]
  case backwardPassed =>
    have hpassed : ¬ ((stored s.mem sc.seg v).state = .committed ∧
        inRange sc true (stored s.mem sc.seg v).seq = true) := by
      rw [inRange_backward_iff hkind, not_and_or, Nat.not_le]
      exact hst
    rw [hbackward hb, stepBackward_of_record hu hv, if_neg hpassed]
    rfl
  case backwardExamined =>
    rw [hbackward hb, stepBackward_of_record hu hv, if_pos ⟨hst, (inRange_backward_iff hkind _).2 hpos⟩,
      hexamined _ _ _ hmiss]

/-! ## The statement on the tail test -/

/-- Settles O39: at a place that is no tail the tail test and the scan step read alike, and at the tail the scan ends or
parks. -/
theorem tailTestEndsOrParks : Obligations.TailTestEndsOrParks := by
  unfold Obligations.TailTestEndsOrParks
  refine ⟨fun s e sc hslot hleft hforward => ?reads, fun s e sc hslot hf hleft howed hskip hplace hforward => ?tail⟩
  case reads =>
    have htest := exec_tailTest_of_scan hslot hleft hforward
    refine ⟨fun u hu hplace => ?_, fun hu hf => ?_, fun hkind hu hf hcan => ?_⟩
    · have hend : ¬ (sc.seg = s.js.filling ∧ atOpenEnd s.mem sc.seg u = true) := by
        rw [atOpenEnd_iff]
        tauto
      rw [htest, exec_scanStep_of_scan hslot hleft, if_neg (Bool.eq_false_iff.1 hforward), tailTest_of_place hu hend,
        stepForward_of_place hu hend]
    · rw [htest, tailTest_of_sealed_entry hu hf]
    · rw [htest, tailTest_of_held hu hf (scanPrunes_of_canHold hkind hcan)]
      rfl
  case tail =>
    have hat (hkind : sc.kind = .fetch ∨ sc.kind = .count) : exec .tailTest s = .next (atTail e sc s) := by
      rw [exec_tailTest_of_scan hslot hleft hforward]
      rcases hplace with ⟨hu, hcan⟩ | ⟨u, hu, hst⟩
      · rw [tailTest_of_pruned hu hf (scanPrunes_of_cannotHold hkind hcan)]
      · rw [tailTest_of_tail hu hf ((atOpenEnd_iff ..).2 (by rcases hst with hst | hst <;> simp [hst]))]
    refine ⟨fun hk hfollow => ?_, fun hk hfollow => ?_, fun hk => ?_⟩
    · rw [hat (.inl hk), atTail_of_fetch hk, if_neg (Bool.eq_false_iff.1 hfollow), endScan_of_nothing_owed howed hskip]
      rfl
    · rw [hat (.inl hk), atTail_of_fetch hk, if_pos hfollow]
      rfl
    · rw [hat (.inr hk), atTail_of_count hk, endCount, endScan_of_nothing_owed howed hskip]
      rfl

end Sys2Proof.Machine
end

section
/-! SUPPORT. One cursor updated: what an update, a loss, a loss check and a window change write, and what the hold floor
report sees of them (R118, R120, R121, R124, R125). -/

namespace Sys2Proof.Machine

/-! ## One cursor -/

/-- The state with this cursor at number `c`. -/
def State.setCursor (c : Fin 4) (y : Cursor) (s : State) : State :=
  { s with cu := { s.cu with cursors := s.cu.cursors.set c y } }

theorem onCursor_eq (c : Fin 4) (f : Cursor → Cursor) (s : State) :
    onCursor c f s = s.setCursor c (f s.cu.cursors[c]) := rfl

@[simp] theorem State.setCursor_setCursor (c : Fin 4) (x y : Cursor) (s : State) :
    (s.setCursor c x).setCursor c y = s.setCursor c y := by
  simp [State.setCursor]

@[simp] theorem State.getElem_setCursor (c : Fin 4) (y : Cursor) (s : State) :
    (s.setCursor c y).cu.cursors[c] = y := by
  simp [State.setCursor]

theorem State.getElem_setCursor_of_ne {b c : Fin 4} (h : b ≠ c) (y : Cursor) (s : State) :
    (s.setCursor c y).cu.cursors[b] = s.cu.cursors[b] := by
  have hval : c.val ≠ b.val := fun hv => h (Fin.ext hv.symm)
  simp [State.setCursor, hval]

theorem State.onHp_setCursor (c : Fin 4) (y : Cursor) (f : Hp → Hp) (s : State) :
    (s.setCursor c y).onHp f = (s.onHp f).setCursor c y := rfl

@[simp] theorem State.setCursor_slot (c : Fin 4) (y : Cursor) (s : State) : (s.setCursor c y).cu.slot = s.cu.slot := rfl

/-- Putting back the cursor that stands there changes nothing. -/
theorem State.setCursor_self (c : Fin 4) (s : State) : s.setCursor c s.cu.cursors[c] = s := by
  simp [State.setCursor]

/-! ## Losses (R120, R121, R124) -/

/-- A cursor with `n` more numbers lost. -/
def Cursor.losing (n : Nat) (x : Cursor) : Cursor :=
  { x with lost := if n = 0 then x.lost else min (x.lost + n) 4294967295 }

/-- The HP with the LOST event sent when `n` numbers are lost. -/
def Hp.toldLoss (n : Nat) (h : Hp) : Hp := if n = 0 then h else { h with events := h.events ||| 0x20 }

theorem reportLoss_eq (c : Fin 4) (n : Nat) (s : State) :
    reportLoss c n s = (s.onHp (Hp.toldLoss n)).setCursor c ((s.cu.cursors[c]).losing n) := by
  by_cases hn : n = 0
  · subst hn
    exact (State.setCursor_self c s).symm
  · simp only [reportLoss, Cursor.losing, State.onHp, Hp.toldLoss, hn, if_false]
    rfl

theorem reportLoss_hp (c : Fin 4) (n : Nat) (s : State) : (reportLoss c n s).hp = s.hp.toldLoss n := by
  rw [reportLoss_eq]
  rfl

theorem reportLoss_slot (c : Fin 4) (n : Nat) (s : State) : (reportLoss c n s).cu.slot = s.cu.slot := by
  rw [reportLoss_eq]
  rfl

/-- Two losses told one after the other are one LOST event. -/
theorem Hp.toldLoss_toldLoss (n m : Nat) (h : Hp) : (h.toldLoss n).toldLoss m = h.toldLoss (n + m) := by
  unfold Hp.toldLoss
  by_cases hn : n = 0 <;> by_cases hm : m = 0 <;> simp [hn, hm, BitVec.or_assoc]

/-- The loss check's own change of a cursor: an overtaken forward position becomes the head sequence `h`, and a pending loss is
taken (R120, R121). -/
def Cursor.checked (h : Nat) (x : Cursor) : Cursor :=
  { x with
    position := if x.backward then x.position else max x.position h
    pendingLoss := if x.backward then 0 else x.pendingLoss }

@[simp] theorem Cursor.losing_backward (n : Nat) (x : Cursor) : (x.losing n).backward = x.backward := rfl
@[simp] theorem Cursor.checked_backward (h : Nat) (x : Cursor) : (x.checked h).backward = x.backward := rfl

theorem lossCheck_eq (c : Fin 4) (s : State) : lossCheck c s =
    (s.onHp (Hp.toldLoss (lossFound c s))).setCursor c
      (((s.cu.cursors[c]).checked (headSeq s)).losing (lossFound c s)) := by
  have hchecked : ∀ x : Cursor, (if x.backward = true then { x with pendingLoss := 0 }
      else { x with position := max x.position (headSeq s) } : Cursor) = x.checked (headSeq s) := by
    intro x
    unfold Cursor.checked
    cases x.backward <;> rfl
  simp only [lossCheck, hchecked]
  rw [reportLoss_eq, onCursor_eq, State.getElem_setCursor, State.onHp_setCursor, State.setCursor_setCursor]

theorem lossCheck_hp (c : Fin 4) (s : State) : (lossCheck c s).hp = s.hp.toldLoss (lossFound c s) := by
  rw [lossCheck_eq]
  rfl

theorem lossCheck_slot (c : Fin 4) (s : State) : (lossCheck c s).cu.slot = s.cu.slot := by
  rw [lossCheck_eq]
  rfl

/-! ## Windows (R125, R171) -/

/-- A cursor whose window changes to `image`, at once or held. -/
def Cursor.showing (atOnce : Bool) (image : List Byte) (x : Cursor) : Cursor :=
  { x with window := if atOnce then image else x.window, heldWindow := if atOnce then x.heldWindow else some image }

theorem setWindow_eq (c : Fin 4) (image : List Byte) (s : State) :
    setWindow c image s = s.setCursor c ((s.cu.cursors[c]).showing (!winOpen c s) image) := by
  unfold setWindow
  cases winOpen c s <;> rfl

/-! ## The hold floor (R118) -/

theorem Cursor.holds_iff (x : Cursor) :
    x.holds = true ↔ x.backward = false ∧ x.hold = true ∧ x.state ≠ .closed := by
  simp [Cursor.holds, and_assoc]

/-- The fold over the cursors is the least of the number it starts from and the positions of those that hold. -/
theorem foldl_lowest (l : List Cursor) (o : Option Nat) :
    l.foldl (fun o c => if c.holds then lowest o c.position else o) o =
      (o.toList ++ (l.filter Cursor.holds).map Cursor.position).min? := by
  induction l generalizing o with
  | nil => cases o <;> rfl
  | cons x l ih =>
    rw [List.foldl_cons, ih]
    cases hx : x.holds with
    | false => simp [hx]
    | true =>
      cases o with
      | none => simp [hx, lowest]
      | some m =>
        simp only [hx, if_true, lowest, List.filter_cons_of_pos, Option.toList_some, List.map_cons, List.cons_append,
          List.nil_append, List.min?_cons', List.foldl_cons]

theorem Cu.floor_eq (u : Cu) : u.floor = ((u.cursors.toList.filter Cursor.holds).map Cursor.position).min? :=
  foldl_lowest _ none

/-- A position that a cursor holds. -/
theorem Cu.mem_heldPositions (u : Cu) (m : Nat) :
    m ∈ (u.cursors.toList.filter Cursor.holds).map Cursor.position ↔
      ∃ c : Fin 4, (u.cursors[c]).holds = true ∧ (u.cursors[c]).position = m := by
  simp [Vector.mem_iff_getElem, Fin.exists_iff, and_assoc]

theorem Cu.floor_eq_none_iff (u : Cu) : u.floor = none ↔ ∀ c : Fin 4, ¬ (u.cursors[c]).holds = true := by
  rw [u.floor_eq, List.min?_eq_none_iff, List.eq_nil_iff_forall_not_mem]
  simp only [u.mem_heldPositions]
  exact ⟨fun h c hc => h _ ⟨c, hc, rfl⟩, fun h _ ⟨c, hc, _⟩ => h c hc⟩

theorem Cu.floor_eq_some_iff (u : Cu) (m : Nat) : u.floor = some m ↔
    (∃ c : Fin 4, (u.cursors[c]).holds = true ∧ (u.cursors[c]).position = m) ∧
      ∀ c : Fin 4, (u.cursors[c]).holds = true → m ≤ (u.cursors[c]).position := by
  rw [u.floor_eq, List.min?_eq_some_iff]
  simp only [u.mem_heldPositions]
  exact and_congr .rfl ⟨fun h c hc => h _ ⟨c, hc, rfl⟩, fun h _ ⟨c, hc, hp⟩ => hp ▸ h c hc⟩

/-! ## Reports (R118) -/

/-- A report that lowers the floor is taken by the JS in the same happening. -/
theorem reportFloor_of_lowered {old : Option Nat} {s : State} (hnew : s.cu.floor ≠ old)
    (hlow : floorLowered old s.cu.floor = true) : reportFloor old s =
      takeFloor s.cu.floor (s.onJs (fun j => { j with floorReports := [] })) := by
  simp only [reportFloor, hnew, hlow, if_true, if_false]

/-- Any other report is on its way. -/
theorem reportFloor_of_not_lowered {old : Option Nat} {s : State} (hnew : s.cu.floor ≠ old)
    (hlow : floorLowered old s.cu.floor = false) : reportFloor old s =
      s.onJs (fun j => { j with floorReports := j.floorReports ++ [s.cu.floor] }) := by
  simp only [reportFloor, hnew, hlow, if_false, Bool.false_eq_true]

/-! ## The statement on the hold floor -/

/-- Settles O31: the fold is a minimum over the cursors that hold, and a report goes by whether it lowers the floor. -/
theorem holdFloorFollowsCursors : Obligations.HoldFloorFollowsCursors := by
  unfold Obligations.HoldFloorFollowsCursors
  refine ⟨fun u => ?floor, fun old s => ⟨fun h => reportFloor_same s old h, fun m hnew hlow => ?lowered, fun k hk hnew => ?other⟩⟩
  case floor =>
    simp only [← Cursor.holds_iff]
    exact ⟨u.floor_eq_none_iff, u.floor_eq_some_iff⟩
  case lowered =>
    have hlowered : s.cu.floor ≠ old ∧ floorLowered old s.cu.floor = true := by
      rcases hlow with rfl | ⟨k, rfl, hmk⟩
      · simp [hnew, floorLowered]
      · simp [hnew, floorLowered, hmk, hmk.ne]
    rw [reportFloor_of_lowered hlowered.1 hlowered.2, hnew]
    rfl
  case other =>
    have hraised : s.cu.floor ≠ old ∧ floorLowered old s.cu.floor = false := by
      rcases hnew with hnew | ⟨m, hnew, hkm⟩
      · simp [hnew, hk, floorLowered]
      · simp [hnew, hk, floorLowered, hkm.le, hkm.ne']
    rw [reportFloor_of_not_lowered hraised.1 hraised.2]
    rfl

end Sys2Proof.Machine
end

section
/-! SUPPORT. The CU takes the command in its slot: the tests of R101, of OPEN (R106) and of SEEK (R108), and the statement on
their order. -/

namespace Sys2Proof.Machine

section

variable {s : State} {e : Entry} {c : Fin 4}

/-! ## Taking a command (R101) -/

theorem withCu_of_dispatched {o : Nat} {op : Byte} (f : Entry → State → State)
    (hslot : s.cu.slot = some { entry := e, scan := none }) (hop : e.opcode = op) (ho : op.toNat = o) :
    withCu o f s = f e s := by
  subst hop
  unfold withCu
  rw [hslot]
  exact if_pos ho

theorem Entry.cursor_of_param (h : e.param 0 = c.val) : e.cursor = some c := by
  simp [Entry.cursor, h]

theorem Entry.cursor_of_high (h : 3 < e.param 0) : e.cursor = none := dif_neg (by omega)

section

variable {moves : Bool} {f : Fin 4 → Entry → State → State}

theorem withCursor_of_high (h : 3 < e.param 0) : withCursor moves f e s = rejectCu e .badParam s := by
  simp only [withCursor, Entry.cursor_of_high h]

theorem withCursor_of_closed (hc : e.param 0 = c.val) (hst : (s.cu.cursors[c]).state = .closed) :
    withCursor moves f e s = rejectCu e .cursorClosed s := by
  simp only [withCursor, Entry.cursor_of_param hc, hst, if_true]

theorem withCursor_of_parked (hc : e.param 0 = c.val) (hst : (s.cu.cursors[c]).state = .parked) (hm : moves = true) :
    withCursor moves f e s = rejectCu e .cursorBusy s := by
  simp only [withCursor, Entry.cursor_of_param hc, hst, hm, reduceCtorEq, and_self, if_true, if_false]

theorem withCursor_of_taken (hc : e.param 0 = c.val) (hopen : (s.cu.cursors[c]).state ≠ .closed)
    (hfree : ¬ ((s.cu.cursors[c]).state = .parked ∧ moves = true)) : withCursor moves f e s = f c e s := by
  simp only [withCursor, Entry.cursor_of_param hc, if_neg hopen]
  exact if_neg fun h => hfree h.symm

/-- A READY cursor passes the tests of R101. -/
theorem withCursor_of_ready (hc : e.param 0 = c.val) (hst : (s.cu.cursors[c]).state = .ready) :
    withCursor moves f e s = f c e s :=
  withCursor_of_taken hc (by rw [hst]; exact nofun) (by rw [hst]; exact nofun)

end

/-! ## The happenings of the cursor commands -/

section

variable (hslot : s.cu.slot = some { entry := e, scan := none })

include hslot

theorem exec_openCursor_of_dispatched (hop : e.opcode = 0x30) : exec .openCursor s = .next (openCursor e s) :=
  congrArg _ (withCu_of_dispatched openCursor hslot hop rfl)

theorem exec_seek_of_dispatched (hop : e.opcode = 0x31) (h1 : e.param 1 ≠ 3) :
    exec .seek s = .next (withCursor true seek e s) := by
  have htime : isTimeSeek e = false := by simpa [isTimeSeek] using h1
  refine congrArg _ ((withCu_of_dispatched _ hslot hop rfl).trans ?_)
  simp only [htime, if_false, Bool.false_eq_true]

theorem exec_seekTime_of_dispatched (hop : e.opcode = 0x31) (h1 : e.param 1 = 3) :
    exec .seekTime s = .next (withCursor true seekTime e s) := by
  have htime : isTimeSeek e = true := by simp [isTimeSeek, h1]
  refine congrArg _ ((withCu_of_dispatched _ hslot hop rfl).trans ?_)
  simp only [htime, if_true]

theorem exec_fetch_of_dispatched (hop : e.opcode = 0x32) :
    exec .fetch s = .next (withCursor true (beginScan .fetch) e s) :=
  congrArg _ (withCu_of_dispatched _ hslot hop rfl)

theorem exec_count_of_dispatched (hop : e.opcode = 0x33) :
    exec .count s = .next (withCursor true (beginScan .count) e s) :=
  congrArg _ (withCu_of_dispatched _ hslot hop rfl)

theorem exec_cancel_of_dispatched (hop : e.opcode = 0x34) : exec .cancel s = .next (withCursor false cancel e s) :=
  congrArg _ (withCu_of_dispatched _ hslot hop rfl)

theorem exec_close_of_dispatched (hop : e.opcode = 0x35) : exec .close s = .next (withCursor false close e s) :=
  congrArg _ (withCu_of_dispatched _ hslot hop rfl)

theorem exec_cursorStatus_of_dispatched (hop : e.opcode = 0x36) :
    exec .cursorStatus s = .next (withCursor false cursorStatus e s) :=
  congrArg _ (withCu_of_dispatched _ hslot hop rfl)

end

/-! ## The tests of OPEN (R106) -/

/-- The options R106 refuses, by their bits: another bit than the three, or BACKWARD with follow or hold. -/
theorem badOptions_iff (o : Nat) :
    7 < o ∨ (o.testBit 0 = true ∧ (o.testBit 1 = true ∨ o.testBit 2 = true)) ↔ o ∉ [0, 1, 2, 4, 6] := by
  have hlow : ∀ o : Fin 8, 7 < o.val ∨ (o.val.testBit 0 = true ∧ (o.val.testBit 1 = true ∨ o.val.testBit 2 = true)) ↔
      o.val ∉ [0, 1, 2, 4, 6] := by decide
  rcases Nat.lt_or_ge o 8 with h | h
  · exact hlow ⟨o, h⟩
  · have hhigh : o ∉ [0, 1, 2, 4, 6] := by
      simp only [List.mem_cons, List.not_mem_nil, or_false]
      omega
    exact iff_of_true (.inl (by omega)) hhigh

/-- Tests 3 to 7 of R106 on what an OPEN carries; the last is that of its descriptor. -/
def Entry.badOpen (e : Entry) : Prop :=
  e.param 1 ∉ [0, 1, 2, 4, 6] ∨ e.payload.length ≠ 27 ∨ e.param16 2 = 0 ∨ 2 < rd8 e.payload 22 ∨
    (rd8 e.payload 22 = 2 ∧ rd32 e.payload 23 = 0) ∨ parseDescriptor e.payload = none

section

variable (hno : s.cu.noOpen = false) (hst : (s.cu.cursors[c]).state = .closed)

include hno hst

theorem openTest_of_bad (hbad : e.badOpen) : openTest c e s = .inl .badParam := by
  unfold Entry.badOpen at hbad
  simp only [openTest, hno, hst, badOptions_iff, Bool.false_eq_true, ne_eq, not_true_eq_false, if_false]
  split_ifs with hoptions hlength hbudget hstart
  case neg =>
    have hrest := ((hbad.resolve_left (not_not_intro hoptions)).resolve_left (not_not_intro hlength)).resolve_left hbudget
    have hnone := (hrest.resolve_left fun h => hstart (.inl h)).resolve_left fun h => hstart (.inr h)
    simp only [hnone]
  all_goals rfl

theorem openTest_of_good {d : Descriptor} (hoptions : e.param 1 ∈ [0, 1, 2, 4, 6]) (hlength : e.payload.length = 27)
    (hbudget : e.param16 2 ≠ 0) (hkind : rd8 e.payload 22 ≤ 2) (hseq : rd8 e.payload 22 = 2 → rd32 e.payload 23 ≠ 0)
    (hd : parseDescriptor e.payload = some d) : openTest c e s = .inr d := by
  have hallowed := (badOptions_iff (e.param 1)).not_left.2 hoptions
  have hstart : ¬ (2 < rd8 e.payload 22 ∨ (rd8 e.payload 22 = 2 ∧ rd32 e.payload 23 = 0)) := by
    rintro (h | ⟨h, h0⟩)
    · omega
    · exact hseq h h0
  simp only [openTest, hno, hst, hallowed, hlength, hbudget, hstart, hd, Bool.false_eq_true, ne_eq, not_true_eq_false,
    if_false]

end

theorem openCursor_of_refused {r : Result} (hc : e.param 0 = c.val) (ht : openTest c e s = .inl r) :
    openCursor e s = rejectCu e r s := by
  simp only [openCursor, Entry.cursor_of_param hc, ht]

/-! ## The tests of SEEK (R108) -/

/-- What R108 refuses of a SEEK. -/
def Entry.badSeek (e : Entry) : Prop :=
  3 < e.param 1 ∨ e.payload.length ≠ (if e.param 1 = 2 then 4 else if e.param 1 = 3 then 6 else 0) ∨
    (e.param 1 = 2 ∧ rd32 e.payload 0 = 0) ∨ (e.param 1 = 3 ∧ 32767 < rd16 e.payload 4)

theorem seekOk_eq_false_iff : seekOk e = false ↔ e.badSeek := by
  simp only [seekOk, seekLength, Entry.badSeek, Bool.and_eq_false_iff, Bool.or_eq_false_iff, decide_eq_false_iff_not,
    beq_eq_false_iff_ne, bne_eq_false_iff_eq, Nat.not_le, or_assoc]

theorem seek_of_bad (h : e.badSeek) : seek c e s = rejectCu e .badParam s := by
  simp [seek, seekOk_eq_false_iff.2 h]

theorem seekTime_of_bad (h : e.badSeek) : seekTime c e s = rejectCu e .badParam s := by
  simp [seekTime, seekOk_eq_false_iff.2 h]

/-! ## The statement on the tests -/

/-- A command so answered changes nothing and frees the slot. -/
def refusedCu (e : Entry) (r : Result) (s : State) : Host.Outcome State Fault Refusal :=
  .next { s with cu := { s.cu with slot := none }, hp := s.hp.post (Response.plain e.tag r []) }

theorem next_rejectCu (r : Result) : .next (rejectCu e r s) = refusedCu e r s := rfl

/-- The tests in their order for one command, of which its happening and its own test are given. -/
theorem cursorTests {i : Instr} {moves : Bool} {f : Fin 4 → Entry → State → State} {bad : Prop}
    (hexec : exec i s = .next (withCursor moves f e s)) (hbad : ∀ c, bad → f c e s = rejectCu e .badParam s) :
    (3 < e.param 0 → exec i s = refusedCu e .badParam s) ∧
    ∀ c : Fin 4, e.param 0 = c.val →
      ((s.cu.cursors[c]).state = .closed → exec i s = refusedCu e .cursorClosed s) ∧
      ((s.cu.cursors[c]).state = .parked → moves = true → exec i s = refusedCu e .cursorBusy s) ∧
      ((s.cu.cursors[c]).state ≠ .closed → ¬ ((s.cu.cursors[c]).state = .parked ∧ moves = true) → bad →
        exec i s = refusedCu e .badParam s) := by
  rw [hexec]
  refine ⟨fun h => ?_, fun c hc => ⟨fun hst => ?_, fun hst hm => ?_, fun hopen hfree h => ?_⟩⟩
  · rw [withCursor_of_high h, next_rejectCu]
  · rw [withCursor_of_closed hc hst, next_rejectCu]
  · rw [withCursor_of_parked hc hst hm, next_rejectCu]
  · rw [withCursor_of_taken hc hopen hfree, hbad c h, next_rejectCu]

end

/-- Settles O35: each command's happening is its own meaning behind the tests of R101, and that meaning begins with its own
test. -/
theorem cursorTestsComeFirst : Obligations.CursorTestsComeFirst := by
  unfold Obligations.CursorTestsComeFirst
  intro s e hslot refused badSeek rows
  refine ⟨fun row hrow hop => ?rows, fun c hop hc hno hst hbad => ?opens⟩
  case rows =>
    simp only [rows, List.mem_cons, List.not_mem_nil, or_false] at hrow
    rcases hrow with rfl | rfl | rfl | rfl | rfl | rfl
    · by_cases h1 : e.param 1 = 3
      · rw [if_pos h1]
        exact cursorTests (exec_seekTime_of_dispatched hslot hop h1) fun _ => seekTime_of_bad
      · rw [if_neg h1]
        exact cursorTests (exec_seek_of_dispatched hslot hop h1) fun _ => seek_of_bad
    · exact cursorTests (exec_fetch_of_dispatched hslot hop) fun _ h => if_pos h
    · exact cursorTests (exec_count_of_dispatched hslot hop) fun _ h => if_pos h
    · exact cursorTests (exec_cancel_of_dispatched hslot hop) fun _ h => if_pos h
    · exact cursorTests (exec_close_of_dispatched hslot hop) fun _ h => if_pos h
    · exact cursorTests (exec_cursorStatus_of_dispatched hslot hop) fun _ h => if_pos h
  case opens =>
    rw [exec_openCursor_of_dispatched hslot hop, openCursor_of_refused hc (openTest_of_bad hno hst hbad), next_rejectCu]
    rfl

end Sys2Proof.Machine
end

section
/-! SUPPORT. OPEN and SEEK to a start other than TIME: the start and its clamp, and the answer after the hold floor report
(R106 to R108, R118, R120, R121, R124). -/

namespace Sys2Proof.Machine

section

variable {s : State} {e : Entry} {c : Fin 4}

/-! ## The start (R107) -/

theorem startPosition_eq (backward : Bool) (kind n : Nat) (s : State) : startPosition backward kind n s =
    match kind with
    | 0 => headSeq s
    | 1 => if backward then tailSeq s - 1 else tailSeq s
    | _ => min n (if backward then tailSeq s - 1 else tailSeq s) := by
  rcases kind with _ | _ | kind <;> rfl

/-! ## The answer after the hold floor report (R118, R124) -/

/-- A loss may be reported before or after the hold floor. -/
theorem reportLoss_reportFloor (hrest : atRest s.cu.slot) (old : Option Nat) (n : Nat) :
    reportLoss c n (reportFloor old s) = reportFloor old (reportLoss c n s) := by
  obtain ⟨hcursors, hslot, hhp⟩ := reportFloor_keeps s hrest old
  have hreport := reportFloor_setSeen (s.hp.toldLoss n) (s.cu.cursors.set c ((s.cu.cursors[c]).losing n)) s.cu.slot s hrest
    old (floor_set s.cu c _ rfl fun _ => rfl)
  have hseen (s : State) : reportLoss c n s =
      s.setSeen (s.hp.toldLoss n) (s.cu.cursors.set c ((s.cu.cursors[c]).losing n)) s.cu.slot := reportLoss_eq ..
  rw [hseen, hseen, hcursors, hslot, hhp, hreport]

/-- The answer after the hold floor report, whatever HP the report finds. -/
theorem answerCu_reportFloor (hrest : atRest s.cu.slot) (old : Option Nat) (h : Hp) (r : Result) (lost : Bool)
    (fields : List Byte) {t : State} (ht : t = reportFloor old { s with hp := h }) :
    answerCu e r lost fields (reportFloor old s) =
      { t with
        cu := { t.cu with slot := none }
        hp := Hp.post { tag := e.tag, result := r, lost := lost, limited := false, fields := fields } s.hp } := by
  obtain ⟨hcursors, -, hhp⟩ := reportFloor_keeps s hrest old
  have hreport : t = (reportFloor old s).setSeen h s.cu.cursors s.cu.slot :=
    ht.trans (reportFloor_setSeen h _ _ s hrest old rfl)
  rw [hreport, ← hhp, ← hcursors]
  rfl

/-! ## OPEN (R106, R107) -/

theorem openTest_of_noOpen (hno : s.cu.noOpen = true) : openTest c e s = .inl .notReady := if_pos hno

theorem openTest_of_busy (hno : s.cu.noOpen = false) (hst : (s.cu.cursors[c]).state ≠ .closed) :
    openTest c e s = .inl .cursorBusy :=
  (if_neg (Bool.eq_false_iff.1 hno)).trans (if_pos hst)

theorem openCursor_of_high (h : 3 < e.param 0) : openCursor e s = rejectCu e .badParam s := by
  simp only [openCursor, Entry.cursor_of_high h]

/-- The state that an OPEN's hold floor report sees. -/
def openedAt (c : Fin 4) (e : Entry) (d : Descriptor) (pos : Nat) (s : State) : State :=
  s.setCursor c (((s.cu.cursors[c]).opened e d pos).showing (!winOpen c s) [])

theorem openCursor_of_good {d : Descriptor} (hc : e.param 0 = c.val) (ht : openTest c e s = .inr d) {start : Nat}
    (hstart : startPosition ((e.param 1).testBit 0) (rd8 e.payload 22) (rd32 e.payload 23) s = start) :
    openCursor e s = answerCu e .done (headSeq s - start != 0)
      (positionFields (max start (headSeq s)) (sat32 (headSeq s - start)))
      (reportLoss c (headSeq s - start) (reportFloor s.cu.floor (openedAt c e d (max start (headSeq s)) s))) := by
  simp only [openCursor, Entry.cursor_of_param hc, ht, hstart, withFloor, setWindow_eq, onCursor_eq,
    State.setCursor_setCursor, State.getElem_setCursor]
  rfl

/-- BACKWARD is option bit 0, which the options R106 allows have alone (R106). -/
theorem testBit_zero_of_allowed {o : Nat} (h : o = 0 ∨ o = 1 ∨ o = 2 ∨ o = 4 ∨ o = 6) : o.testBit 0 = (o == 1) := by
  rcases h with rfl | rfl | rfl | rfl | rfl <;> rfl

/-! ## SEEK (R108) -/

/-- The state that a SEEK's hold floor report sees. -/
def soughtAt (c : Fin 4) (pos : Nat) (s : State) : State :=
  (lossCheck c s).setCursor c
    { ((s.cu.cursors[c]).checked (headSeq s)).losing (lossFound c s) with position := pos }

theorem seek_of_good (hgood : ¬ e.badSeek) {start : Nat}
    (hstart : startPosition (s.cu.cursors[c]).backward (e.param 1) (rd32 e.payload 0) s = start) :
    seek c e s = answerCu e .done (lossFound c s + (headSeq s - start) != 0)
      (positionFields (max start (headSeq s)) (sat32 (lossFound c s + (headSeq s - start))))
      (reportLoss c (headSeq s - start) (reportFloor (lossCheck c s).cu.floor (soughtAt c (max start (headSeq s)) s))) := by
  have hok : seekOk e = true := by rw [← Bool.not_eq_false, seekOk_eq_false_iff]; exact hgood
  have hcursor : (lossCheck c s).cu.cursors[c] = ((s.cu.cursors[c]).checked (headSeq s)).losing (lossFound c s) := by
    rw [lossCheck_eq]
    exact State.getElem_setCursor ..
  have hseq : headSeq (lossCheck c s) = headSeq s := by rw [lossCheck_eq]; rfl
  have hstart' : startPosition (s.cu.cursors[c]).backward (e.param 1) (rd32 e.payload 0) (lossCheck c s) = start := by
    rw [← hstart, lossCheck_eq]
    rfl
  simp only [seek, hok, Bool.not_true, Bool.false_eq_true, if_false, hcursor, Cursor.losing_backward,
    Cursor.checked_backward, hstart', clampLoss, hseq, withFloor, onCursor_eq]
  rfl

/-- A loss check on a cursor that, if it holds, has not been overtaken leaves the hold floor (R118, R120). -/
theorem lossCheck_floor (h : (s.cu.cursors[c]).holds = true → headSeq s ≤ (s.cu.cursors[c]).position) :
    (lossCheck c s).cu.floor = s.cu.floor := by
  rw [lossCheck_eq]
  refine floor_set s.cu c _ rfl fun hx => ?_
  have hholds : (s.cu.cursors[c]).holds = true := hx
  have hforward := ((Cursor.holds_iff _).1 hholds).1
  simp only [Cursor.losing, Cursor.checked, hforward, Bool.false_eq_true, if_false]
  exact Nat.max_eq_left (h hholds)

end

/-! ## The statements on OPEN and SEEK -/

/-- Settles O32: the tests of R106 choose the refusal, and past them the answer commutes with the hold floor report. -/
theorem openSetsUpCursor : Obligations.OpenSetsUpCursor := by
  unfold Obligations.OpenSetsUpCursor
  intro s e hslot hop refused
  have hexec := exec_openCursor_of_dispatched hslot hop
  refine ⟨fun h => ?high, fun c hc => ⟨fun hno => ?notReady, fun hno hst => ?busy,
    fun d hno hst hoptions hlength hbudget hkind hseq hd => ?good⟩⟩
  case high => rw [hexec, openCursor_of_high h, next_rejectCu]; rfl
  case notReady => rw [hexec, openCursor_of_refused hc (openTest_of_noOpen hno), next_rejectCu]; rfl
  case busy => rw [hexec, openCursor_of_refused hc (openTest_of_busy hno hst), next_rejectCu]; rfl
  case good =>
    intro backward limit start pos skipped shown opened t
    have hbackward : (e.param 1).testBit 0 = backward := testBit_zero_of_allowed hoptions
    have htest : openTest c e s = .inr d := openTest_of_good hno hst (by simpa using hoptions) hlength hbudget hkind hseq hd
    have hstart : startPosition ((e.param 1).testBit 0) (rd8 e.payload 22) (rd32 e.payload 23) s = start := by
      rw [hbackward]
      exact startPosition_eq ..
    have hopened : ((openedAt c e d pos s).cu.cursors[c]).losing skipped = opened := by
      have hlost : (if skipped = 0 then 0 else min (0 + skipped) 4294967295) = min skipped 4294967295 := by
        split_ifs <;> omega
      simp only [openedAt, State.getElem_setCursor, Cursor.losing, Cursor.showing, Cursor.opened, hlost, hbackward]
      rfl
    have hrest : atRest (openedAt c e d pos s).cu.slot := by
      rw [openedAt, State.setCursor_slot, hslot]
      exact atRest_dispatched e
    have ht : t = reportFloor s.cu.floor { reportLoss c skipped (openedAt c e d pos s) with hp := s.hp } := by
      rw [reportLoss_eq, hopened]
      simp [openedAt, State.setCursor, t]
    rw [hexec, openCursor_of_good hc htest hstart, reportLoss_reportFloor hrest,
      answerCu_reportFloor (by rwa [reportLoss_slot]) _ s.hp _ _ _ ht, reportLoss_hp]
    rfl

/-- Settles O33: the losses of the loss check and of the clamp join in the answer, which commutes with the hold floor
report. -/
theorem seekSetsPosition : Obligations.SeekSetsPosition := by
  unfold Obligations.SeekSetsPosition
  intro s e c hslot hop hc hst h1 hlength hseq x hhold limit start pos overtaken clamped skipped sought t
  have hgood : ¬ e.badSeek := by
    unfold Entry.badSeek
    split_ifs at hlength ⊢ with h2 h3
    · simp [h2, hlength, hseq h2]
    · omega
    · simp [h2, h3, hlength, Nat.le_succ_of_le h1]
  have hstart : startPosition x.backward (e.param 1) (rd32 e.payload 0) s = start := startPosition_eq ..
  have hfloor : (lossCheck c s).cu.floor = s.cu.floor := lossCheck_floor fun hx => by
    obtain ⟨hforward, hholding, -⟩ := (Cursor.holds_iff _).1 hx
    exact hhold hforward hholding
  have hsought : ((soughtAt c pos s).cu.cursors[c]).losing clamped = sought := by
    have hlost : (if clamped = 0 then (if overtaken = 0 then x.lost else min (x.lost + overtaken) 4294967295)
        else min ((if overtaken = 0 then x.lost else min (x.lost + overtaken) 4294967295) + clamped) 4294967295) =
        if skipped = 0 then x.lost else min (min (x.lost + overtaken) 4294967295 + clamped) 4294967295 := by
      split_ifs <;> omega
    rw [soughtAt, State.getElem_setCursor]
    exact congrArg (fun lost : Nat => { sought with lost := lost }) hlost
  have hrest : atRest (soughtAt c pos s).cu.slot := by
    rw [soughtAt, State.setCursor_slot, lossCheck_slot, hslot]
    exact atRest_dispatched e
  have hhp : (soughtAt c pos s).hp = s.hp.toldLoss overtaken := lossCheck_hp c s
  have ht : t = reportFloor s.cu.floor { reportLoss c clamped (soughtAt c pos s) with hp := s.hp } := by
    rw [reportLoss_eq, hsought, soughtAt, lossCheck_eq]
    simp [State.setCursor, t]
  rw [exec_seek_of_dispatched hslot hop (by omega), withCursor_of_ready hc hst, seek_of_good hgood hstart, hfloor,
    reportLoss_reportFloor hrest, answerCu_reportFloor (by rwa [reportLoss_slot]) _ s.hp _ _ _ ht, reportLoss_hp, hhp,
    Hp.toldLoss_toldLoss]
  rfl

end Sys2Proof.Machine
end

section
/-! SUPPORT. FETCH, COUNT and SEEK to a TIME begin: the loss check, the scan in the slot, and the ends a FETCH or COUNT may be
at already (R99, R104, R109, R110, R112, R120, R121). -/

namespace Sys2Proof.Machine

section

variable {s : State} {e : Entry} {c : Fin 4}

theorem scanStart_lossCheck (p : Nat) : scanStart p (lossCheck c s) = scanStart p s := by
  rw [lossCheck_eq]
  rfl

theorem getElem_lossCheck :
    (lossCheck c s).cu.cursors[c] = ((s.cu.cursors[c]).checked (headSeq s)).losing (lossFound c s) := by
  rw [lossCheck_eq, State.getElem_setCursor]

/-- A search begun: the loss check made, the cursor SCANNING and the scan in the slot. -/
def begun (e : Entry) (sc : Scan) (s : State) : State :=
  let n := lossFound sc.cursor s
  let x := ((s.cu.cursors[sc.cursor]).checked (headSeq s)).losing n
  { s with
    cu := { s.cu with
      cursors := s.cu.cursors.set sc.cursor { x with state := .scanning }
      slot := some { entry := e, scan := some sc } }
    hp := s.hp.toldLoss n }

theorem startScan_lossCheck (e : Entry) (sc : Scan) (s : State) :
    startScan e sc (lossCheck sc.cursor s) = begun e sc s := by
  rw [startScan, onCursor_eq, getElem_lossCheck, lossCheck_eq, State.setCursor_setCursor]
  rfl

theorem begun_backward (e : Entry) (sc : Scan) (s : State) :
    ((begun e sc s).cu.cursors[sc.cursor]).backward = (s.cu.cursors[sc.cursor]).backward := by
  simp [begun]

/-- A FETCH or COUNT without a payload: it begins, and may be at the head or at the tail at once. -/
theorem beginScan_of_good (kind : ScanKind) (hp : e.payload = []) {sc : Scan}
    (hsc : sc = Scan.begin c kind ((s.cu.cursors[c]).checked (headSeq s)).position
      (scanStart ((s.cu.cursors[c]).checked (headSeq s)).position s) (sat32 (lossFound c s))) :
    beginScan kind c e s =
      if (s.cu.cursors[c]).backward then
        if sc.pos < headSeq s then atHead e sc (headSeq s - 1) (begun e sc s) else begun e sc s
      else if tailSeq s ≤ sc.pos then atTail e sc (begun e sc s) else begun e sc s := by
  have hpos : ((lossCheck c s).cu.cursors[c]).position = sc.pos := by
    rw [hsc, getElem_lossCheck]
    rfl
  have hscan : Scan.begin c kind sc.pos (scanStart sc.pos (lossCheck c s)) (sat32 (lossFound c s)) = sc := by
    rw [hsc, scanStart_lossCheck]
    rfl
  have hbegun : startScan e sc (lossCheck c s) = begun e sc s := by
    subst hsc
    exact startScan_lossCheck ..
  have hbackward : ((begun e sc s).cu.cursors[c]).backward = (s.cu.cursors[c]).backward := by
    subst hsc
    exact begun_backward ..
  simp only [beginScan, if_neg (not_not_intro hp), hpos, hscan, hbegun, hbackward]
  rfl

theorem seekTime_of_good (hgood : ¬ e.badSeek) {sc : Scan}
    (hsc : sc = Scan.begin c (.seekTime (rdStamp e.payload 0)) 0
      (if (s.cu.cursors[c]).backward then s.js.filling else s.js.head) (sat32 (lossFound c s))) :
    seekTime c e s = begun e sc s := by
  have hok : seekOk e = true := by rw [← Bool.not_eq_false, seekOk_eq_false_iff]; exact hgood
  have hjs : (lossCheck c s).js = s.js := by rw [lossCheck_eq]; rfl
  simp only [seekTime, hok, Bool.not_true, Bool.false_eq_true, if_false, getElem_lossCheck, Cursor.losing_backward,
    Cursor.checked_backward, hjs]
  subst hsc
  exact startScan_lossCheck ..

end

/-! ## The statement -/

/-- Settles O34: each of the three commands, taken on a READY cursor, begins its scan after the loss check. -/
theorem searchesBeginScanning : Obligations.SearchesBeginScanning := by
  unfold Obligations.SearchesBeginScanning
  intro s e c hslot hc hst x n p scan t begins
  have hbegins (kind : ScanKind) (hp : e.payload = []) : beginScan kind c e s = begins kind :=
    beginScan_of_good kind hp rfl
  refine ⟨fun hop hp => ?_, fun hop hp => ?_, fun hop h1 hlength hticks => ?_⟩
  · rw [exec_fetch_of_dispatched hslot hop, withCursor_of_ready hc hst, hbegins .fetch hp]
  · rw [exec_count_of_dispatched hslot hop, withCursor_of_ready hc hst, hbegins .count hp]
  · have hgood : ¬ e.badSeek := by
      simp [Entry.badSeek, h1, hlength, hticks]
    rw [exec_seekTime_of_dispatched hslot hop h1, withCursor_of_ready hc hst, seekTime_of_good hgood rfl]
    rfl

end Sys2Proof.Machine
end

section
/-! SUPPORT. CANCEL, CLOSE and CURSOR_STATUS: the answer of a parked fetch, and the cursor after it (R116 to R118, R126). -/

namespace Sys2Proof.Machine

section

variable {s : State} {e : Entry} {c : Fin 4}

/-! ## A parked fetch answers (R116, R117) -/

theorem answerParked_of_parked (r : Result) {tag : Byte} (hst : (s.cu.cursors[c]).state = .parked)
    (htag : (s.cu.cursors[c]).fetchTag = some tag) :
    answerParked r c s = post (Response.bare tag r (s.cu.cursors[c]).fetchLost) s := by
  have hparked : (s.cu.cursors[c]).parkedTag = some tag := (if_pos hst).trans htag
  simp only [answerParked, hparked]

theorem answerParked_of_not_parked (r : Result) (hst : (s.cu.cursors[c]).state ≠ .parked) : answerParked r c s = s := by
  have hparked : (s.cu.cursors[c]).parkedTag = none := if_neg hst
  simp only [answerParked, hparked]

theorem Cursor.unparked_of_parked {x : Cursor} (h : x.state = .parked) :
    x.unparked = { x with state := .ready, fetchTag := none, fetchLost := false, beatsLeft := none } := if_pos h

theorem Cursor.unparked_of_not_parked {x : Cursor} (h : x.state ≠ .parked) : x.unparked = x := if_neg h

/-! ## The commands -/

theorem cancel_of_good (hp : e.payload = []) :
    cancel c e s = answerCu e .done false [] (onCursor c Cursor.unparked (answerParked .cancelled c s)) :=
  if_neg (not_not_intro hp)

theorem close_of_good (hp : e.payload = []) : close c e s = answerCu e .done false []
    (reportFloor s.cu.floor (onCursor c Cursor.closedByFormat (answerParked .closed c s))) :=
  if_neg (not_not_intro hp)

theorem cursorStatus_of_good (hp : e.payload = []) :
    cursorStatus c e s = answerCu e .done false (s.cu.cursors[c]).statusFields s :=
  if_neg (not_not_intro hp)

theorem Cursor.statusFields_eq (x : Cursor) : x.statusFields =
    [byte (x.state.code + 4 * x.backward.toNat + 8 * x.follow.toNat + 16 * x.hold.toNat
        + 128 * (x.position == 4294967296).toNat)]
      ++ be32 (if x.position = 4294967296 then 0 else x.position) ++ be32 x.delivered ++ be32 x.lost := by
  simp [Cursor.statusFields]

/-- CLOSE's answer, with the HP after a parked fetch's answer given. -/
theorem close_eq (hslot : s.cu.slot = some { entry := e, scan := none }) (hp : e.payload = []) {f : Hp → Hp}
    (hparked : answerParked .closed c s = s.onHp f) {t : State}
    (ht : t = reportFloor s.cu.floor (s.setCursor c (s.cu.cursors[c]).closedByFormat)) :
    close c e s =
      { t with cu := { t.cu with slot := none }, hp := Hp.post (Response.plain e.tag .done []) (f s.hp) } := by
  rw [close_of_good hp, hparked, onCursor_eq]
  exact answerCu_reportFloor (by rw [State.setCursor_slot]; exact hslot ▸ atRest_dispatched e) _ s.hp .done false [] ht

end

/-! ## The statement -/

/-- Settles O36: CANCEL and CLOSE first answer the fetch parked on their cursor, if there is one, and CURSOR_STATUS answers
alone; a scan in the slot makes DISPATCH wait. -/
theorem cancelCloseAndStatusAnswer : Obligations.CancelCloseAndStatusAnswer := by
  unfold Obligations.CancelCloseAndStatusAnswer
  refine ⟨fun s e c hslot hop hc hp => ?cancel, fun s e rest x hslot hop hcommands => ?dispatch,
    fun s e c hslot hc hp => ?close⟩
  case cancel =>
    intro x
    have htaken (hst : x.state ≠ .closed) : exec .cancel s =
        .next (answerCu e .done false [] (onCursor c Cursor.unparked (answerParked .cancelled c s))) := by
      rw [exec_cancel_of_dispatched hslot hop, withCursor_of_taken hc hst (by simp), cancel_of_good hp]
    refine ⟨fun tag hst htag => ?_, fun hst => ?_⟩
    · rw [htaken (by rw [hst]; exact nofun), answerParked_of_parked .cancelled hst htag, onCursor_eq]
      exact congrArg (fun y => Host.Outcome.next (answerCu e .done false [] (State.setCursor c y _)))
        (Cursor.unparked_of_parked hst)
    · have hfree : x.state ≠ .parked := by rw [hst]; exact nofun
      rw [htaken (by rw [hst]; exact nofun), answerParked_of_not_parked .cancelled hfree, onCursor_eq,
        Cursor.unparked_of_not_parked hfree, State.setCursor_self]
      rfl
  case dispatch =>
    have hunit : unitOf e.opcode = some .cu := by rw [hop]; rfl
    have hwaits : unitFree .cu s = false := by simp [unitFree, hslot]
    simp only [exec, execDispatch, hcommands, hunit, hwaits, Bool.false_eq_true, if_false]
  case close =>
    intro x closed
    have hclosed (f : Hp → Hp) (hop : e.opcode = 0x35) (hst : x.state ≠ .closed)
        (hparked : answerParked .closed c s = s.onHp f) : exec .close s = closed (f s.hp) := by
      rw [exec_close_of_dispatched hslot hop, withCursor_of_taken hc hst (by simp), close_eq hslot hp hparked rfl]
      rfl
    refine ⟨fun hop hst => ?_, fun tag hop hst htag => ?_, fun hop hst => ?_⟩
    · exact hclosed id hop (by rw [hst]; exact nofun) (answerParked_of_not_parked .closed (by rw [hst]; exact nofun))
    · exact hclosed _ hop (by rw [hst]; exact nofun) (answerParked_of_parked .closed hst htag)
    · have hopen : x.state ≠ .closed := by rcases hst with hst | hst <;> rw [hst] <;> exact nofun
      have hcode : (if x.state = .ready then 1 else 3) = x.state.code := by rcases hst with hst | hst <;> rw [hst] <;> rfl
      rw [exec_cursorStatus_of_dispatched hslot hop, withCursor_of_taken hc hopen (by simp), cursorStatus_of_good hp,
        Cursor.statusFields_eq, hcode]
      rfl

end Sys2Proof.Machine
end

section
/-! SUPPORT. A record that matches is delivered: by a FETCH that reaches it, and by a commit notice to a parked fetch; and the
parked fetch's timeout (R105, R110, R114, R115, R118, R124, R125). -/

namespace Sys2Proof.Machine

/-- A cursor with one more match delivered, its record shown in the window. -/
def Cursor.delivering (atOnce : Bool) (image : List Byte) (x : Cursor) : Cursor :=
  { x.showing atOnce image with delivered := min (x.delivered + 1) 4294967295 }

theorem Cursor.delivering_holds (atOnce : Bool) (image : List Byte) (x : Cursor) :
    (x.delivering atOnce image).holds = x.holds := rfl

theorem Cursor.delivering_position (atOnce : Bool) (image : List Byte) (x : Cursor) :
    (x.delivering atOnce image).position = x.position := rfl

theorem countDelivered_setWindow (c : Fin 4) (image : List Byte) (s : State) :
    countDelivered c (setWindow c image s) = s.setCursor c ((s.cu.cursors[c]).delivering (!winOpen c s) image) := by
  rw [countDelivered, onCursor_eq, setWindow_eq, State.setCursor_setCursor, State.getElem_setCursor]
  rfl

section

variable {s : State} {e : Entry} {sc : Scan}

/-! ## A FETCH reaches a match (R105, R110) -/

/-- The state of a place is that of the record there. -/
theorem placeState_eq_stored (m : Memory) (g : Seg) {u : Nat} (hu : u ≤ 255) :
    placeState m g u = (stored m g u).state := by
  rw [placeState, if_pos hu]
  simp [stored, placeHeader, Memory.bytes]

/-- The window image by the record's own size (R125). -/
theorem windowImage_eq (m : Memory) (g : Seg) (u : Nat) : windowImage m g u =
    0xC3 :: (m.bytes (g.val * 2048 + u * 8) ((stored m g u).size * 8)).drop 1 := rfl

/-- The end of a scan whose cursor has been updated beside its hold. -/
theorem endScan_setCursor (pos : Nat) (r : Result) (limited : Bool) (fields : Nat → List Byte) {y : Cursor}
    (hholds : y.holds = (s.cu.cursors[sc.cursor]).holds) (hpos : y.position = (s.cu.cursors[sc.cursor]).position) :
    endScan e sc pos r limited fields (s.setCursor sc.cursor y) = reportFloor s.cu.floor
      { s with
        cu := { s.cu with
          slot := none
          cursors := s.cu.cursors.set sc.cursor { y.losing sc.owed with state := .ready, position := pos } }
        hp := Hp.post
          { tag := e.tag, result := r, lost := min (sc.skipped + sc.owed) 4294967295 != 0, limited := limited
            fields := fields (min (sc.skipped + sc.owed) 4294967295) }
          (s.hp.toldLoss sc.owed) } := by
  have hfloor : (s.setCursor sc.cursor y).cu.floor = s.cu.floor := floor_set s.cu _ y hholds fun _ => hpos
  rw [endScan_eq, hfloor, State.getElem_setCursor]
  simp only [State.setCursor, Vector.set_set]
  rfl

theorem examine_of_fetch_matched (u : Nat) (next : Onward) (hk : sc.kind = .fetch)
    (hmatch : (s.cu.cursors[sc.cursor]).desc.acceptsStored (stored s.mem sc.seg u) = true) : examine e sc u next s =
      reportFloor s.cu.floor
        { s with
          cu := { s.cu with
            slot := none
            cursors := s.cu.cursors.set sc.cursor
              { ((s.cu.cursors[sc.cursor]).delivering (!winOpen sc.cursor s)
                  (windowImage s.mem sc.seg u)).losing sc.owed with
                state := .ready, position := next.pos } }
          hp := Hp.post
            { tag := e.tag, result := .found, lost := min (sc.skipped + sc.owed) 4294967295 != 0, limited := false
              fields := foundFields (stored s.mem sc.seg u).seq (stored s.mem sc.seg u).cls (stored s.mem sc.seg u).len
                (stored s.mem sc.seg u).stamp }
            (s.hp.toldLoss sc.owed) } := by
  simp only [examine, hk, hmatch, if_true, countDelivered_setWindow]
  rw [endScan_setCursor next.pos .found false _ (Cursor.delivering_holds ..) (Cursor.delivering_position ..)]

end

/-- Settles O37: either direction reads the place and examines its record, which matches. -/
theorem scanFindsMatch : Obligations.ScanFindsMatch := by
  unfold Obligations.ScanFindsMatch
  intro s e sc v hslot hk hleft hv x r hforward hbackward hst hmatch image shown skipped
  have hplace : placeState s.mem sc.seg v = .committed := (placeState_eq_stored _ _ hv).trans hst
  have hreads : ∃ unit, exec .scanStep s =
      .next (examine e sc v { pos := if x.backward then r.seq - 1 else r.seq + 1, unit := unit } s) := by
    have hstep := exec_scanStep_of_scan hslot hleft
    cases hb : x.backward with
    | false =>
      obtain ⟨hu, hpos⟩ := hforward hb
      rw [if_neg (Bool.eq_false_iff.1 hb), stepForward_of_place hu (by simp [atOpenEnd_iff, hplace]),
        readForward_of_committed hplace, if_pos ((inRange_forward_iff (.inl hk) _).2 hpos)] at hstep
      rw [if_neg Bool.false_ne_true]
      exact ⟨_, hstep⟩
    | true =>
      obtain ⟨hpos, w, hu, hw⟩ := hbackward hb
      rw [if_pos hb, stepBackward_of_record hu hw, if_pos ⟨hst, (inRange_backward_iff (.inl hk) _).2 hpos⟩] at hstep
      rw [if_pos rfl]
      exact ⟨_, hstep⟩
  obtain ⟨unit, hexamined⟩ := hreads
  have hfields : foundFields r.seq r.cls r.len r.stamp =
      be32 r.seq ++ [byte r.cls, byte r.len] ++ be32 r.stamp.seconds ++ be16 r.stamp.ticks :=
    (List.append_assoc ..).symm
  rw [hexamined, examine_of_fetch_matched v _ hk hmatch, windowImage_eq, hfields]
  simp only [Cursor.delivering, Cursor.showing, Cursor.losing, Hp.toldLoss]
  rfl

section

variable {s : State} {n : Notice} {c : Fin 4}

/-! ## A cursor takes a commit notice (R114) -/

theorem parkedNotice_of_not_parked (hst : (s.cu.cursors[c]).state ≠ .parked) : parkedNotice n c s = s :=
  if_neg fun h => hst h.1

theorem parkedNotice_of_below (hseq : n.seq < (s.cu.cursors[c]).position) : parkedNotice n c s = s :=
  if_neg fun h => Nat.not_le.2 hseq h.2

theorem parkedNotice_of_unmatched (hst : (s.cu.cursors[c]).state = .parked) (hseq : (s.cu.cursors[c]).position ≤ n.seq)
    (hmiss : (s.cu.cursors[c]).desc.acceptsNotice n = false) :
    parkedNotice n c s = s.setCursor c { s.cu.cursors[c] with position := n.seq + 1 } :=
  (if_pos ⟨hst, hseq⟩).trans (if_neg (Bool.eq_false_iff.1 hmiss))

theorem parkedNotice_of_matched {tag : Byte} (hst : (s.cu.cursors[c]).state = .parked)
    (htag : (s.cu.cursors[c]).fetchTag = some tag) (hseq : (s.cu.cursors[c]).position ≤ n.seq)
    (hmatch : (s.cu.cursors[c]).desc.acceptsNotice n = true) : parkedNotice n c s =
      post { tag := tag, result := .found, lost := (s.cu.cursors[c]).fetchLost, limited := false
             fields := foundFields n.seq n.cls n.len n.stamp }
        (s.setCursor c { (s.cu.cursors[c]).delivering (!winOpen c s) (windowImage s.mem n.seg n.unit) with
          state := .ready, position := n.seq + 1, fetchTag := none, fetchLost := false, beatsLeft := none }) := by
  have hunparked := Cursor.unparked_of_parked
    (x := (s.cu.cursors[c]).delivering (!winOpen c s) (windowImage s.mem n.seg n.unit)) hst
  simp only [parkedNotice, hst, hseq, hmatch, htag, and_self, if_true, countDelivered_setWindow, onCursor_eq,
    State.setCursor_setCursor, State.getElem_setCursor, hunparked]

/-! ## Every cursor takes it (R114; log 16) -/

theorem parkedNotice_getElem_of_ne {b : Fin 4} (hb : b ≠ c) :
    (parkedNotice n c s).cu.cursors[b] = s.cu.cursors[b] := by
  unfold parkedNotice
  dsimp only
  split_ifs
  · rw [countDelivered_setWindow, onCursor_eq, State.setCursor_setCursor]
    split <;> exact State.getElem_setCursor_of_ne hb ..
  · exact State.getElem_setCursor_of_ne hb ..
  · rfl

theorem parkedNotices_of_none_parked (l : List (Fin 4)) (h : ∀ b ∈ l, (s.cu.cursors[b]).state ≠ .parked) :
    l.foldl (fun s c => parkedNotice n c s) s = s := by
  induction l with
  | nil => rfl
  | cons b l ih =>
    rw [List.foldl_cons, parkedNotice_of_not_parked (h b (by simp)), ih fun d hd => h d (by simp [hd])]

/-- With no other cursor parked the notice is taken by one cursor alone. -/
theorem parkedNotices_of_sole (h : ∀ b : Fin 4, b ≠ c → (s.cu.cursors[b]).state ≠ .parked) :
    (fins 4).foldl (fun s c => parkedNotice n c s) s = parkedNotice n c s := by
  obtain ⟨before, after, hsplit⟩ := List.append_of_mem (List.mem_finRange c)
  have hnodup := List.nodup_finRange 4
  rw [hsplit, List.nodup_middle, List.nodup_cons, List.mem_append, not_or] at hnodup
  obtain ⟨⟨hbefore, hafter⟩, -⟩ := hnodup
  rw [fins, hsplit, List.foldl_append, List.foldl_cons,
    parkedNotices_of_none_parked before fun b hb => h b (ne_of_mem_of_not_mem hb hbefore)]
  refine parkedNotices_of_none_parked after fun b hb => ?_
  have hne := ne_of_mem_of_not_mem hb hafter
  rw [parkedNotice_getElem_of_ne hne]
  exact h b hne

/-- The state after the CU has taken its oldest commit notice from the list. -/
def withoutCuNotice (rest : List Notice) (s : State) : State :=
  s.onCu (fun u => { u with notices := rest })

theorem exec_cuCommitNotice_of_sole {rest : List Notice} (hn : s.cu.notices = n :: rest) (hstopped : s.cu.stopped = false)
    (h : ∀ b : Fin 4, b ≠ c → (s.cu.cursors[b]).state ≠ .parked) :
    exec .cuCommitNotice s = .next (reportFloor s.cu.floor (parkedNotice n c (withoutCuNotice rest s))) := by
  rw [← parkedNotices_of_sole (s := withoutCuNotice rest s) h]
  simp only [exec, execCuCommitNotice, hn, State.onCu_cu, hstopped, Bool.false_eq_true, if_false]
  rfl

/-! ## The timeout (R115) -/

theorem exec_followTimeout_of_parked {tag : Byte} (hst : (s.cu.cursors[c]).state = .parked)
    (htag : (s.cu.cursors[c]).fetchTag = some tag) (hbeats : (s.cu.cursors[c]).beatsLeft = some 0) :
    exec (.followTimeout c) s =
      .next (post (Response.plain tag .timeout (positionBytes (s.cu.cursors[c]).position))
        (onCursor c Cursor.unparked s)) := by
  simp only [exec, execFollowTimeout, hst, hbeats, htag, and_self, if_true]

end

/-- Settles O40: the parked cursor alone takes the notice, by its position and descriptor; with its beats over it answers
TIMEOUT. -/
theorem parkedFetchAnswers : Obligations.ParkedFetchAnswers := by
  unfold Obligations.ParkedFetchAnswers
  intro s c tag x hst htag
  refine ⟨fun n rest hn hstopped hsole => ?notice, fun hbeats => ?timeout⟩
  case notice =>
    intro taken shown
    rw [exec_cuCommitNotice_of_sole hn hstopped hsole]
    refine ⟨fun hseq => ?_, fun hseq hmiss => ?_, fun hseq hmatch => ?_⟩
    · rw [parkedNotice_of_below (s := withoutCuNotice rest s) hseq, reportFloor_same (withoutCuNotice rest s) s.cu.floor rfl]
      rfl
    · rw [parkedNotice_of_unmatched (s := withoutCuNotice rest s) hst hseq hmiss]
      rfl
    · rw [parkedNotice_of_matched (s := withoutCuNotice rest s) hst htag hseq hmatch]
      rfl
  case timeout =>
    rw [exec_followTimeout_of_parked hst htag hbeats, onCursor_eq, Cursor.unparked_of_parked hst]
    rfl

end Sys2Proof.Machine
end

section
/-! SUPPORT. Reclaim notices: what a cursor at rest takes of one, and how it moves a forward scan out of the lost segment
(R109, R121, R122). -/

namespace Sys2Proof.Machine

/-! ## A cursor at rest (R121) -/

theorem Cursor.takeReclaim_eq (n : ReclaimNotice) (x : Cursor) : x.takeReclaim n =
    if x.state ≠ .ready ∨ x.backward = false ∨ x.position < n.oldHead then x
    else if x.position < n.newHead then
      { x with
        position := n.newHead - 1, pendingLoss := min (x.pendingLoss + (x.position - n.oldHead + 1)) 4294967295 }
    else { x with pendingLoss := min (x.pendingLoss + (n.newHead - n.oldHead)) 4294967295 } := by
  unfold Cursor.takeReclaim
  by_cases hrest : x.state = .ready ∧ x.backward = true
  · have hready : ¬ (x.state ≠ .ready ∨ x.backward = false ∨ x.position < n.oldHead) ↔ ¬ x.position < n.oldHead := by
      simp [hrest.1, hrest.2]
    rw [if_pos hrest]
    by_cases hbelow : x.position < n.oldHead
    · rw [if_pos hbelow, if_pos (.inr (.inr hbelow))]
    · rw [if_neg hbelow, if_neg (hready.2 hbelow)]
      rfl
  · have hother : x.state ≠ .ready ∨ x.backward = false ∨ x.position < n.oldHead := by
      rw [not_and_or, Bool.not_eq_true] at hrest
      exact hrest.imp_right .inl
    rw [if_neg hrest, if_pos hother]

theorem Cursor.takeReclaim_backward (n : ReclaimNotice) (x : Cursor) : (x.takeReclaim n).backward = x.backward := by
  rw [x.takeReclaim_eq]
  split_ifs <;> rfl

theorem Cursor.takeReclaim_of_forward (n : ReclaimNotice) {x : Cursor} (h : x.backward = false) : x.takeReclaim n = x := by
  rw [x.takeReclaim_eq, if_pos (.inr (.inl h))]

/-! ## The notice is taken (R121, R122) -/

/-- The state once the cursors at rest have taken their oldest reclaim notice. -/
def noted (n : ReclaimNotice) (rest : List ReclaimNotice) (s : State) : State :=
  { s with
    cu := { s.cu with
      reclaims := rest
      cursors := Vector.ofFn (fun c =>
        if n.seenBy.contains c then s.cu.cursors[c] else (s.cu.cursors[c]).takeReclaim n) } }

section

variable {s : State} {e : Entry} {sc : Scan} {n : ReclaimNotice} {rest : List ReclaimNotice}

theorem getElem_noted (c : Fin 4) : (noted n rest s).cu.cursors[c] =
    if n.seenBy.contains c then s.cu.cursors[c] else (s.cu.cursors[c]).takeReclaim n := by
  simp [noted]

theorem noted_backward (c : Fin 4) : ((noted n rest s).cu.cursors[c]).backward = (s.cu.cursors[c]).backward := by
  rw [getElem_noted]
  split
  · rfl
  · exact Cursor.takeReclaim_backward ..

theorem getElem_noted_of_forward {c : Fin 4} (h : (s.cu.cursors[c]).backward = false) :
    (noted n rest s).cu.cursors[c] = s.cu.cursors[c] := by
  rw [getElem_noted, Cursor.takeReclaim_of_forward n h, ite_self]

section

variable (hr : s.cu.reclaims = n :: rest) (hstopped : s.cu.stopped = false)

include hr hstopped

theorem exec_reclaimNotice_of_no_scan (hslot : ∀ x, s.cu.slot = some x → x.scan = none) :
    exec .reclaimNotice s = .next (noted n rest s) := by
  simp only [exec, execReclaimNotice, hr, State.onCu_cu, hstopped, Bool.false_eq_true, if_false]
  split
  · next e sc hscan => exact absurd (hslot _ hscan) nofun
  · rfl

theorem exec_reclaimNotice_of_scan (hslot : s.cu.slot = some { entry := e, scan := some sc }) :
    exec .reclaimNotice s = .next
      (if n.seenBy.contains sc.cursor then noted n rest s else scanReclaimed n e sc (noted n rest s)) := by
  simp only [exec, execReclaimNotice, hr, State.onCu_cu, hstopped, Bool.false_eq_true, if_false, hslot]
  rfl

theorem exec_reclaimNotice_of_seen (hslot : s.cu.slot = some { entry := e, scan := some sc })
    (hseen : sc.cursor ∈ n.seenBy) : exec .reclaimNotice s = .next (noted n rest s) := by
  rw [exec_reclaimNotice_of_scan hr hstopped hslot, if_pos (List.contains_iff_mem.2 hseen)]

theorem exec_reclaimNotice_of_new (hslot : s.cu.slot = some { entry := e, scan := some sc })
    (hnew : sc.cursor ∉ n.seenBy) : exec .reclaimNotice s = .next (scanReclaimed n e sc (noted n rest s)) := by
  rw [exec_reclaimNotice_of_scan hr hstopped hslot, if_neg (mt List.contains_iff_mem.1 hnew)]

end

/-! ## A forward scan is overtaken (R109, R122) -/

/-- The numbers that a forward scan skips when it goes on from `h`, none of them reported by a SEEK to a TIME. -/
def Scan.skips (h : Nat) (sc : Scan) : Nat := if sc.kind = .fetch ∨ sc.kind = .count then h - sc.pos else 0

theorem overtakeForward_eq (g : Seg) (h : Nat) : overtakeForward e sc g h s =
    { s with
      cu := { s.cu with
        cursors := s.cu.cursors.set sc.cursor ((s.cu.cursors[sc.cursor]).losing (sc.skips h))
        slot := some { entry := e
                       scan := some { sc with
                         seg := g, unit := none, pos := max sc.pos h
                         skipped := min (sc.skipped + sc.skips h) 4294967295
                         left := s.cu.reclaims.any (fun m => !(m.seenBy.contains sc.cursor) && m.seg == g) } } }
      hp := s.hp.toldLoss (sc.skips h) } := by
  have hskips : (match sc.kind with
      | .seekTime _ => 0
      | .fetch | .count => h - sc.pos) = sc.skips h := by
    unfold Scan.skips
    cases sc.kind <;> rfl
  have hleft : (unseen sc.cursor s).any (fun n => n.seg == g) =
      s.cu.reclaims.any (fun m => !(m.seenBy.contains sc.cursor) && m.seg == g) := List.any_filter
  rw [← hskips, ← hleft, overtakeForward, reportLoss_eq]
  rfl

theorem scanReclaimed_of_forward (hf : (s.cu.cursors[sc.cursor]).backward = false) : scanReclaimed n e sc s =
    if sc.left = true ∧ sc.seg = n.seg then overtakeForward e sc (n.seg + 1) n.newHead s else s := by
  simp only [scanReclaimed, hf, Bool.false_eq_true, if_false, Bool.and_eq_true, beq_iff_eq]

end

/-- Settles O41: the cursors at rest take the notice, and a scan it concerns is overtaken. -/
theorem reclaimNoticeAccountsLosses : Obligations.ReclaimNoticeAccountsLosses := by
  unfold Obligations.ReclaimNoticeAccountsLosses
  intro s n rest hr hstopped rested noted'
  have hrested : rested = fun c =>
      if n.seenBy.contains c then s.cu.cursors[c] else (s.cu.cursors[c]).takeReclaim n := by
    funext c
    simp only [rested, Cursor.takeReclaim_eq, List.contains_iff_mem]
    by_cases hc : c ∈ n.seenBy
    · rw [if_pos (.inl hc), if_pos hc]
    · simp only [hc, false_or, if_false]
  have hnoted : noted' = noted n rest s := by simp only [noted', hrested, noted]
  rw [hnoted]
  refine ⟨exec_reclaimNotice_of_no_scan hr hstopped, fun e sc hslot =>
    ⟨exec_reclaimNotice_of_seen hr hstopped hslot, fun hnew hforward => ?forward⟩⟩
  case forward =>
    intro x skipped
    have hscan : exec .reclaimNotice s = .next (if sc.left = true ∧ sc.seg = n.seg then
        overtakeForward e sc (n.seg + 1) n.newHead (noted n rest s) else noted n rest s) := by
      rw [exec_reclaimNotice_of_new hr hstopped hslot hnew,
        scanReclaimed_of_forward ((noted_backward sc.cursor).trans hforward)]
    refine ⟨fun hout => ?_, fun hleft hseg => ?_⟩
    · have houtside : ¬ (sc.left = true ∧ sc.seg = n.seg) := by
        rw [not_and_or, Bool.not_eq_true]
        exact hout
      rw [hscan, if_neg houtside]
    · rw [hscan, if_pos ⟨hleft, hseg⟩, overtakeForward_eq, getElem_noted_of_forward hforward]
      rfl

end Sys2Proof.Machine
end

section
/-! SUPPORT. A scan whose segment has left journal order: what it finds by reading, and what a notice tells a backward one
(R109, R122, R123; logs 15, 41). -/

namespace Sys2Proof.Machine

section

variable {s : State} {e : Entry} {sc : Scan}

/-! ## What the scan has learned of (R122) -/

/-- The state with these reclaim notices on their way. -/
def State.awaiting (ns : List ReclaimNotice) (s : State) : State := { s with cu := { s.cu with reclaims := ns } }

/-- Cursor `c` marked on these notices. -/
def marked (c : Fin 4) (ns : List ReclaimNotice) : List ReclaimNotice :=
  ns.map (fun n => { n with seenBy := c :: n.seenBy })

theorem unseenBy_iff (c : Fin 4) (n : ReclaimNotice) : n.unseenBy c = true ↔ c ∉ n.seenBy := by
  simp [ReclaimNotice.unseenBy]

theorem Scan.endedBy_iff (sc : Scan) (n : ReclaimNotice) : sc.endedBy n = true ↔
    if sc.kind = .fetch ∨ sc.kind = .count then sc.pos < n.newHead else n.seg = sc.seg := by
  unfold Scan.endedBy
  cases sc.kind <;> simp

/-- None of the notices that the cursor has not learned of is one that `stop` accepts. -/
theorem find?_unseen_eq_none (c : Fin 4) (stop : ReclaimNotice → Bool) (ns : List ReclaimNotice)
    (h : ∀ m ∈ ns, c ∉ m.seenBy → stop m = false) :
    (ns.filter (ReclaimNotice.unseenBy c)).find? stop = none := by
  rw [List.find?_eq_none]
  intro m hm
  rw [List.mem_filter, unseenBy_iff] at hm
  simp [h m hm.1 hm.2]

theorem markSeen_of_none (c : Fin 4) (stop : ReclaimNotice → Bool)
    (h : ∀ m ∈ s.cu.reclaims, c ∉ m.seenBy → stop m = false) :
    markSeen c stop s = s.awaiting (marked c s.cu.reclaims) :=
  congrArg s.awaiting (learn_of_find_none c stop s.cu.reclaims (find?_unseen_eq_none c stop _ h))

theorem markSeen_of_first (c : Fin 4) (stop : ReclaimNotice → Bool) {before after : List ReclaimNotice} {n : ReclaimNotice}
    (hr : s.cu.reclaims = before ++ n :: after) (hnew : c ∉ n.seenBy) (hstop : stop n = true)
    (hbefore : ∀ m ∈ before, c ∉ m.seenBy → stop m = false) :
    markSeen c stop s = s.awaiting (marked c (before ++ [n]) ++ after) := by
  have hlearn := learn_of_first c stop before n after ((unseenBy_iff c n).2 hnew) hstop
    fun m hm hu => hbefore m hm ((unseenBy_iff c m).1 hu)
  rw [← hr] at hlearn
  exact congrArg s.awaiting hlearn

theorem beforeGone_of_none (h : ∀ m ∈ s.cu.reclaims, sc.cursor ∉ m.seenBy → sc.endedBy m = false) :
    beforeGone sc s = headSeq s - 1 := by
  rw [beforeGone, unseen, find?_unseen_eq_none _ _ _ h]

theorem beforeGone_of_first {before after : List ReclaimNotice} {n : ReclaimNotice}
    (hr : s.cu.reclaims = before ++ n :: after) (hnew : sc.cursor ∉ n.seenBy) (hends : sc.endedBy n = true)
    (hbefore : ∀ m ∈ before, sc.cursor ∉ m.seenBy → sc.endedBy m = false) : beforeGone sc s = n.newHead - 1 := by
  rw [beforeGone, unseen, hr, List.filter_append, List.find?_append, find?_unseen_eq_none _ _ _ hbefore,
    List.filter_cons_of_pos ((unseenBy_iff ..).2 hnew), List.find?_cons_of_pos hends]
  rfl

/-! ## The happenings of a scan whose segment has left journal order (R122, R123) -/

theorem exec_scanStep_of_left (hslot : s.cu.slot = some { entry := e, scan := some sc }) (hleft : sc.left = true) :
    exec .scanStep s = .next (findsGone e sc s) := by
  simp only [exec, execScanStep, withScan, hslot, hleft, if_true]

theorem exec_tailTest_of_left (hslot : s.cu.slot = some { entry := e, scan := some sc }) (hleft : sc.left = true) :
    exec .tailTest s = .next (findsGone e sc s) := by
  simp only [exec, execTailTest, withScan, hslot, hleft, if_true]

/-- A forward scan has learned of every notice, and goes on from the head, which is in journal order. -/
theorem findsGone_of_forward (hf : (s.cu.cursors[sc.cursor]).backward = false) : findsGone e sc s =
    { s with
      cu := { s.cu with
        reclaims := marked sc.cursor s.cu.reclaims
        cursors := s.cu.cursors.set sc.cursor ((s.cu.cursors[sc.cursor]).losing (sc.skips (headSeq s)))
        slot := some { entry := e
                       scan := some { sc with
                         seg := s.js.head, unit := none, pos := max sc.pos (headSeq s)
                         skipped := min (sc.skipped + sc.skips (headSeq s)) 4294967295, left := false } } }
      hp := s.hp.toldLoss (sc.skips (headSeq s)) } := by
  have hmark := markSeen_of_none (s := s) sc.cursor (fun _ => false) fun _ _ _ => rfl
  have hleft : (marked sc.cursor s.cu.reclaims).any
      (fun m => !(m.seenBy.contains sc.cursor) && m.seg == s.js.head) = false := by
    simp [marked]
  simp only [findsGone, hf, Bool.false_eq_true, if_false, hmark]
  rw [overtakeForward_eq]
  simp only [State.awaiting, hleft]

theorem findsGone_of_search (hk : sc.kind = .fetch ∨ sc.kind = .count)
    (hb : (s.cu.cursors[sc.cursor]).backward = true) : findsGone e sc s =
      afterReclaims e (sc.atHeadOf s.js.head) (lossesOf sc.pos (unseen sc.cursor s)) (beforeGone sc s)
        (markSeen sc.cursor sc.endedBy s) := by
  rcases hk with hk | hk <;> simp only [findsGone, hb, hk, if_true]

theorem findsGone_of_seek (hk : ¬ (sc.kind = .fetch ∨ sc.kind = .count))
    (hb : (s.cu.cursors[sc.cursor]).backward = true) :
    findsGone e sc s = atHead e sc (beforeGone sc s) (markSeen sc.cursor sc.endedBy s) := by
  unfold findsGone
  cases hkind : sc.kind with
  | seekTime t => simp only [hb, if_true]
  | fetch => exact absurd (.inl hkind) hk
  | count => exact absurd (.inr hkind) hk

theorem afterReclaims_of_ended {l : Bool × Nat} (hl : l.1 = true) (before : Nat) :
    afterReclaims e sc l before s = atHead e { sc with owed := sc.owed + l.2 } before s := if_pos hl

theorem afterReclaims_of_on {l : Bool × Nat} (hl : l.1 = false) (before : Nat) :
    afterReclaims e sc l before s = setScan e { sc with owed := sc.owed + l.2 } s := if_neg (Bool.eq_false_iff.1 hl)

/-! ## A notice for a backward scan (R109, R123) -/

theorem scanReclaimed_of_search {n : ReclaimNotice} (hk : sc.kind = .fetch ∨ sc.kind = .count)
    (hb : (s.cu.cursors[sc.cursor]).backward = true) : scanReclaimed n e sc s =
      afterReclaims e (if sc.left = true ∧ sc.seg = n.seg then sc.atHeadOf s.js.head else sc) (n.loss sc.pos)
        (n.newHead - 1) s := by
  rcases hk with hk | hk <;>
    simp only [scanReclaimed, hb, hk, if_true, Bool.and_eq_true, beq_iff_eq]

theorem scanReclaimed_of_seek {n : ReclaimNotice} (hk : ¬ (sc.kind = .fetch ∨ sc.kind = .count))
    (hb : (s.cu.cursors[sc.cursor]).backward = true) : scanReclaimed n e sc s =
      if sc.left = true ∧ sc.seg = n.seg then atHead e sc (n.newHead - 1) s else s := by
  unfold scanReclaimed
  cases hkind : sc.kind with
  | seekTime t => simp only [hb, if_true, Bool.and_eq_true, beq_iff_eq]
  | fetch => exact absurd (.inl hkind) hk
  | count => exact absurd (.inr hkind) hk

theorem ReclaimNotice.loss_of_below {q : Nat} {n : ReclaimNotice} (h : q < n.newHead) :
    n.loss q = (true, q + 1 - n.oldHead) := if_pos h

theorem ReclaimNotice.loss_of_above {q : Nat} {n : ReclaimNotice} (h : n.newHead ≤ q) :
    n.loss q = (false, n.newHead - n.oldHead) := if_neg (Nat.not_lt.2 h)

theorem lossesOf_cons_of_below {q : Nat} {n : ReclaimNotice} (rest : List ReclaimNotice) (h : q < n.newHead) :
    lossesOf q (n :: rest) = (true, q + 1 - n.oldHead) := by
  simp only [lossesOf, ReclaimNotice.loss_of_below h, if_true]

theorem lossesOf_cons_of_above {q : Nat} {n : ReclaimNotice} (rest : List ReclaimNotice) (h : n.newHead ≤ q) :
    lossesOf q (n :: rest) = ((lossesOf q rest).1, (n.newHead - n.oldHead) + (lossesOf q rest).2) := by
  simp only [lossesOf, ReclaimNotice.loss_of_above h, Bool.false_eq_true, if_false]

/-! ## The ends at the head (R104, R109, R123) -/

theorem endSeek_of_forward (pos : Nat) (hf : (s.cu.cursors[sc.cursor]).backward = false) : endSeek e sc pos s =
    endScan e sc (max pos (headSeq s)) .done false (positionFields (max pos (headSeq s))) s := by
  simp only [endSeek, hf, Bool.false_eq_true, if_false]

theorem endSeek_of_backward (pos : Nat) (hb : (s.cu.cursors[sc.cursor]).backward = true) : endSeek e sc pos s =
    endScan e sc pos .done false (positionFields pos) s := by
  simp only [endSeek, hb, if_true]

/-- A backward scan at the head ends by its kind: a COUNT keeps its position. -/
theorem atHead_of_backward (before : Nat) (hb : (s.cu.cursors[sc.cursor]).backward = true) : atHead e sc before s =
    if sc.kind = .count then
      endScan e sc (scanPosition sc s) .done false (fun skipped => be32 sc.found ++ be32 skipped) s
    else endScan e sc before (if sc.kind = .fetch then .endReached else .done) false (positionFields before) s := by
  unfold atHead
  cases hk : sc.kind with
  | fetch => rfl
  | count => rfl
  | seekTime t => exact endSeek_of_backward before hb

end

end Sys2Proof.Machine
end

section
/-! SUPPORT. The steps of a SEEK to a TIME: what it passes over, what ends it and where it is at the tail or the head (R102 to
R104, R109). -/

namespace Sys2Proof.Machine

section

variable {s : State} {e : Entry} {sc : Scan} {t : Stamp} (hk : sc.kind = .seekTime t)

include hk

/-! ## The test of an index entry (R109) -/

theorem scanPrunes_seek_of_earlier {x : Cursor} {entry : IndexEntry} (hf : x.backward = false)
    (h : ∀ m, entry.maxStamp = some m → t.le m = false) : scanPrunes sc x entry = true := by
  simp only [scanPrunes, hk, hf, Bool.false_eq_true, if_false]
  cases hm : entry.maxStamp with
  | none => rfl
  | some m => simp [h m hm]

theorem scanPrunes_seek_of_reaching {x : Cursor} {entry : IndexEntry} {m : Stamp} (hf : x.backward = false)
    (hm : entry.maxStamp = some m) (h : t.le m = true) : scanPrunes sc x entry = false := by
  simp [scanPrunes, hk, hf, hm, h]

theorem scanPrunes_seek_of_later {x : Cursor} {entry : IndexEntry} (hb : x.backward = true)
    (h : ∀ m, entry.minStamp = some m → m.le t = false) : scanPrunes sc x entry = true := by
  simp only [scanPrunes, hk, hb, if_true]
  cases hm : entry.minStamp with
  | none => rfl
  | some m => simp [h m hm]

theorem scanPrunes_seek_of_reached {x : Cursor} {entry : IndexEntry} {m : Stamp} (hb : x.backward = true)
    (hm : entry.minStamp = some m) (h : m.le t = true) : scanPrunes sc x entry = false := by
  simp [scanPrunes, hk, hb, hm, h]

/-! ## A record (R109) -/

theorem inRange_seek (backward : Bool) (seq : Nat) : inRange sc backward seq = true := by
  simp only [inRange, hk]

theorem examine_of_seek (u : Nat) (next : Onward) : examine e sc u next s =
    if (if (s.cu.cursors[sc.cursor]).backward then (stored s.mem sc.seg u).stamp.le t
        else t.le (stored s.mem sc.seg u).stamp) = true then
      endSeek e sc (stored s.mem sc.seg u).seq s
    else setScan e { sc with pos := next.pos, unit := some next.unit, examined := sc.examined + 1 } s := by
  simp only [examine, hk]

/-! ## The tail and the head (R103, R104, R109) -/

theorem atTail_of_seek : atTail e sc s = endSeek e sc (tailSeq s) s := by
  simp only [atTail, hk]

theorem atHead_of_seek (before : Nat) : atHead e sc before s = endSeek e sc before s := by
  simp only [atHead, hk]

omit hk in
theorem leaveBackward_of_first (h : sc.seg = s.js.head) : leaveBackward e sc s = atHead e sc (headSeq s - 1) s := if_pos h

omit hk in
theorem leaveBackward_of_later (hleft : sc.left = false) (h : sc.seg ≠ s.js.head) :
    leaveBackward e sc s = setScan e { sc with seg := sc.seg - 1, unit := none } s := by
  rw [← Scan.cross_eq hleft]
  exact if_neg h

/-- A backward search that leaves the head segment is at the head. -/
theorem leaveBackward_of_seek (hb : (s.cu.cursors[sc.cursor]).backward = true) (h : sc.seg = s.js.head) :
    leaveBackward e sc s = endScan e sc (headSeq s - 1) .done false (positionFields (headSeq s - 1)) s := by
  rw [leaveBackward_of_first h, atHead_of_seek hk, endSeek_of_backward _ hb]

/-! ## The happenings of the search -/

section

variable (hslot : s.cu.slot = some { entry := e, scan := some sc }) (hleft : sc.left = false)

include hslot hleft

omit hk in
theorem exec_scanStep_of_forward (hf : (s.cu.cursors[sc.cursor]).backward = false) :
    exec .scanStep s = .next (stepForward e sc s) := by
  rw [exec_scanStep_of_scan hslot hleft, if_neg (Bool.eq_false_iff.1 hf)]

omit hk in
theorem exec_scanStep_of_backward (hb : (s.cu.cursors[sc.cursor]).backward = true) :
    exec .scanStep s = .next (stepBackward e sc s) := by
  rw [exec_scanStep_of_scan hslot hleft, if_pos hb]

/-! ### Forward -/

section

variable (hf : (s.cu.cursors[sc.cursor]).backward = false)

include hf

/-- A segment without a stamp at or after the time is passed over. -/
theorem seek_passes_segment (hu : sc.unit = none) (h : ∀ m, (s.js.index[sc.seg]).maxStamp = some m → t.le m = false)
    (hseg : sc.seg ≠ s.js.filling) : exec .scanStep s = .next (setScan e { sc with seg := sc.seg + 1 } s) := by
  rw [exec_scanStep_of_forward hslot hleft hf, stepForward_of_pruned hu hseg (scanPrunes_seek_of_earlier hk hf h),
    Scan.cross_eq hleft]

/-- Such a filling segment is the tail. -/
theorem seek_ends_in_segment (hu : sc.unit = none) (h : ∀ m, (s.js.index[sc.seg]).maxStamp = some m → t.le m = false)
    (hseg : sc.seg = s.js.filling) : exec .tailTest s = .next
      (endScan e sc (max (tailSeq s) (headSeq s)) .done false (positionFields (max (tailSeq s) (headSeq s))) s) := by
  rw [exec_tailTest_of_scan hslot hleft hf, tailTest_of_pruned hu hseg (scanPrunes_seek_of_earlier hk hf h),
    atTail_of_seek hk, endSeek_of_forward _ hf]

theorem seek_enters_segment {m : Stamp} (hu : sc.unit = none) (hm : (s.js.index[sc.seg]).maxStamp = some m)
    (h : t.le m = true) (hseg : sc.seg ≠ s.js.filling) :
    exec .scanStep s = .next (setScan e { sc with unit := some 1 } s) := by
  rw [exec_scanStep_of_forward hslot hleft hf, stepForward_of_held hu hseg (scanPrunes_seek_of_reaching hk hf hm h)]

theorem seek_enters_filling {m : Stamp} (hu : sc.unit = none) (hm : (s.js.index[sc.seg]).maxStamp = some m)
    (h : t.le m = true) (hseg : sc.seg = s.js.filling) :
    exec .tailTest s = .next (setScan e { sc with unit := some 1 } s) := by
  rw [exec_tailTest_of_scan hslot hleft hf, tailTest_of_held hu hseg (scanPrunes_seek_of_reaching hk hf hm h)]

variable {u : Nat} (hu : sc.unit = some u)

include hu

omit hk in
theorem seek_passes_void (hst : placeState s.mem sc.seg u = .void) : exec .scanStep s =
    .next (setScan e { sc with unit := some (u + (stored s.mem sc.seg u).size) } s) := by
  rw [exec_scanStep_of_forward hslot hleft hf, stepForward_of_place hu (by simp [atOpenEnd_iff, hst]),
    readForward_of_void hst]

omit hk in
theorem seek_leaves_segment (hst : placeState s.mem sc.seg u = .free) (hseg : sc.seg ≠ s.js.filling) :
    exec .scanStep s = .next (setScan e { sc with seg := sc.seg + 1, unit := none } s) := by
  rw [exec_scanStep_of_forward hslot hleft hf, stepForward_of_place hu (fun h => hseg h.1), readForward_of_free hst,
    Scan.cross_eq hleft]

theorem seek_examines (hst : placeState s.mem sc.seg u = .committed) : exec .scanStep s = .next
    (if t.le (stored s.mem sc.seg u).stamp = true then endSeek e sc (stored s.mem sc.seg u).seq s
      else setScan e { sc with
        pos := (stored s.mem sc.seg u).seq + 1, unit := some (u + (stored s.mem sc.seg u).size)
        examined := sc.examined + 1 } s) := by
  rw [exec_scanStep_of_forward hslot hleft hf, stepForward_of_place hu (by simp [atOpenEnd_iff, hst]),
    readForward_of_committed hst, if_pos (inRange_seek hk ..), examine_of_seek hk, if_neg (Bool.eq_false_iff.1 hf)]

/-- A FREE place in the filling segment is the tail. -/
theorem seek_ends_at_place (hst : placeState s.mem sc.seg u = .free) (hseg : sc.seg = s.js.filling) :
    exec .tailTest s = .next
      (endScan e sc (max (tailSeq s) (headSeq s)) .done false (positionFields (max (tailSeq s) (headSeq s))) s) := by
  rw [exec_tailTest_of_scan hslot hleft hf, tailTest_of_tail hu hseg (by simp [atOpenEnd_iff, hst]), atTail_of_seek hk,
    endSeek_of_forward _ hf]

end

/-! ### Backward -/

section

variable (hb : (s.cu.cursors[sc.cursor]).backward = true)

include hb

/-- A segment without a stamp at or before the time is left. -/
theorem seekBack_passes_segment (hu : sc.unit = none)
    (h : ∀ m, (s.js.index[sc.seg]).minStamp = some m → m.le t = false) :
    exec .scanStep s = .next (leaveBackward e sc s) := by
  rw [exec_scanStep_of_backward hslot hleft hb, stepBackward_of_pruned hu (scanPrunes_seek_of_later hk hb h)]

theorem seekBack_enters_segment {m : Stamp} (hu : sc.unit = none) (hm : (s.js.index[sc.seg]).minStamp = some m)
    (h : m.le t = true) : exec .scanStep s = .next (setScan e { sc with unit := some 256 } s) := by
  rw [exec_scanStep_of_backward hslot hleft hb, stepBackward_of_held hu (scanPrunes_seek_of_reached hk hb hm h)]

variable {u : Nat} (hu : sc.unit = some u)

include hu

omit hk in
theorem seekBack_leaves_segment (hv : lastBelow s.mem sc.seg u = none) :
    exec .scanStep s = .next (leaveBackward e sc s) := by
  rw [exec_scanStep_of_backward hslot hleft hb, stepBackward_of_first hu hv]

variable {v : Nat} (hv : lastBelow s.mem sc.seg u = some v)

include hv

omit hk in
theorem seekBack_passes_record (hst : (stored s.mem sc.seg v).state ≠ .committed) :
    exec .scanStep s = .next (setScan e { sc with unit := some v } s) := by
  rw [exec_scanStep_of_backward hslot hleft hb, stepBackward_of_record hu hv, if_neg fun h => hst h.1]

theorem seekBack_examines (hst : (stored s.mem sc.seg v).state = .committed) : exec .scanStep s = .next
    (if (stored s.mem sc.seg v).stamp.le t = true then endSeek e sc (stored s.mem sc.seg v).seq s
      else setScan e { sc with
        pos := (stored s.mem sc.seg v).seq - 1, unit := some v, examined := sc.examined + 1 } s) := by
  rw [exec_scanStep_of_backward hslot hleft hb, stepBackward_of_record hu hv, if_pos ⟨hst, inRange_seek hk ..⟩,
    examine_of_seek hk, if_pos hb]

end

end

end

end Sys2Proof.Machine
end

section
/-! SUPPORT. The statement on scans whose segment leaves journal order, and on SEEK to a TIME (R109, R121 to R123; logs 15,
41, 44). -/

namespace Sys2Proof.Machine

/-- Settles O42: what a scan finds by reading or is told by a notice chooses how it goes on or ends, and each step of a SEEK to
a TIME is chosen by what it reads. -/
theorem scansLoseTheirSegment : Obligations.ScansLoseTheirSegment := by
  unfold Obligations.ScansLoseTheirSegment
  refine ⟨fun q n rest => ⟨rfl, lossesOf_cons_of_below rest, lossesOf_cons_of_above rest⟩, fun s e sc hslot => ?scan⟩
  intro x h mark new ending goes ends atTheHead known headScan
  have hends (owed pos : Nat) (r : Result) (fields : Nat → List Byte) (u : State) :
      .next (endScan e { sc with owed := owed } pos r false fields u) = ends u owed pos r fields := by
    rw [endScan_eq]
  have hhead (owed before : Nat) (u : State) (hb : (u.cu.cursors[sc.cursor]).backward = true) :
      .next (atHead e { sc with owed := owed } before u) = atTheHead u owed before := by
    rw [atHead_of_backward (sc := { sc with owed := owed }) before hb, apply_ite Host.Outcome.next]
    exact if_congr .rfl (hends ..) (hends ..)
  have hending (n : ReclaimNotice) : sc.endedBy n = true ↔ ending n := sc.endedBy_iff n
  have hnot_ending (n : ReclaimNotice) (hn : ¬ ending n) : sc.endedBy n = false :=
    Bool.eq_false_iff.2 (mt (hending n).1 hn)
  refine ⟨fun hleft hf => ?forward, fun hleft hb => ⟨fun before n after hr hnew hn hbefore => ?ended, fun hnone => ?on⟩,
    fun n rest hr hstopped hnew hb => ?notice, fun t hk hleft => ?passes, fun t v hk hleft => ?reaches⟩
  case forward =>
    exact ⟨by rw [exec_scanStep_of_left hslot hleft, findsGone_of_forward hf]; rfl,
      by rw [exec_tailTest_of_left hslot hleft, findsGone_of_forward hf]; rfl⟩
  case ended =>
    intro t l
    have hall : ∀ m ∈ before, sc.cursor ∉ m.seenBy → sc.endedBy m = false := fun m hm hu => hnot_ending m (hbefore m hm hu)
    have hgone := beforeGone_of_first hr hnew ((hending n).2 hn) hall
    have hmark : markSeen sc.cursor sc.endedBy s = t := markSeen_of_first _ _ hr hnew ((hending n).2 hn) hall
    rw [exec_scanStep_of_left hslot hleft]
    by_cases hk : sc.kind = .fetch ∨ sc.kind = .count
    · have hlost : (lossesOf sc.pos (unseen sc.cursor s)).1 = true := by
        rw [unseen, hr, List.filter_append, List.filter_cons_of_pos ((unseenBy_iff ..).2 hnew)]
        exact lossesOf_ends _ _ _ _ ((if_pos hk).mp hn)
      rw [findsGone_of_search hk hb, hmark, hgone, afterReclaims_of_ended hlost, if_pos hk, unseen, hr]
      exact hhead _ _ t hb
    · rw [findsGone_of_seek hk hb, hmark, hgone, if_neg hk]
      exact hhead sc.owed _ t hb
  case on =>
    intro t
    have hall : ∀ m ∈ s.cu.reclaims, sc.cursor ∉ m.seenBy → sc.endedBy m = false := fun m hm hu =>
      hnot_ending m (hnone m hm hu)
    have hmark : markSeen sc.cursor sc.endedBy s = t := markSeen_of_none _ _ hall
    rw [exec_scanStep_of_left hslot hleft]
    by_cases hk : sc.kind = .fetch ∨ sc.kind = .count
    · have hlost : (lossesOf sc.pos (unseen sc.cursor s)).1 = false := by
        refine lossesOf_goes_on _ _ fun m hm => ?_
        rw [unseen, List.mem_filter, unseenBy_iff] at hm
        exact fun hpos => hnone m hm.1 hm.2 ((if_pos hk).mpr hpos)
      rw [findsGone_of_search hk hb, hmark, afterReclaims_of_on hlost, if_pos hk]
      rfl
    · rw [findsGone_of_seek hk hb, hmark, beforeGone_of_none hall, if_neg hk]
      exact hhead sc.owed _ t hb
  case notice =>
    intro noted' inside
    have hnoted : noted n rest s = noted' := by simp only [noted, noted', List.contains_iff_mem]
    have hb' : (noted'.cu.cursors[sc.cursor]).backward = true := by
      rw [← hnoted, noted_backward]
      exact hb
    rw [exec_reclaimNotice_of_new hr hstopped hslot hnew, hnoted]
    refine ⟨fun hk => ?search, fun hfetch hcount => ?seek⟩
    case search =>
      rw [scanReclaimed_of_search hk hb']
      refine ⟨fun hpos => ?_, fun hpos => ⟨fun hin => ?_, fun hout => ?_⟩⟩
      · rw [ReclaimNotice.loss_of_below hpos, afterReclaims_of_ended rfl]
        split <;> exact hhead _ _ noted' hb'
      · rw [ReclaimNotice.loss_of_above hpos, afterReclaims_of_on rfl, if_pos hin]
        rfl
      · rw [ReclaimNotice.loss_of_above hpos, afterReclaims_of_on rfl, if_neg hout]
        rfl
    case seek =>
      rw [scanReclaimed_of_seek (not_or.2 ⟨hfetch, hcount⟩) hb', apply_ite Host.Outcome.next]
      refine if_congr .rfl (hhead sc.owed _ noted' hb') ?_
      simp only [goes, ← hslot]
      rfl
  case passes =>
    intro entry on none0
    refine ⟨fun hf hu => ⟨fun hearlier => ⟨fun hseg => ?_, fun hseg => ?_⟩, fun m hm hreach => ⟨fun hseg => ?_, fun hseg => ?_⟩⟩,
      fun hb hu => ⟨fun hlater => ⟨fun hseg => ?_, fun hseg => ?_⟩, fun m hm hreach => ?_⟩,
      fun u hf hu => ⟨fun hst => ?_, fun hst hearlier => ?_, fun hst hseg => ?_⟩,
      fun u hb hu => ⟨fun hv hseg => ?_, fun v hv => ⟨fun hst => ?_, fun hst hlater => ?_⟩⟩⟩
    · exact seek_passes_segment hk hslot hleft hf hu hearlier hseg
    · exact (seek_ends_in_segment hk hslot hleft hf hu hearlier hseg).trans (hends sc.owed ..)
    · exact seek_enters_segment hk hslot hleft hf hu hm hreach hseg
    · exact seek_enters_filling hk hslot hleft hf hu hm hreach hseg
    · rw [seekBack_passes_segment hk hslot hleft hb hu hlater, leaveBackward_of_later hleft hseg, ← hu]
      rfl
    · rw [seekBack_passes_segment hk hslot hleft hb hu hlater, leaveBackward_of_seek hk hb hseg]
      exact hends sc.owed ..
    · exact seekBack_enters_segment hk hslot hleft hb hu hm hreach
    · exact seek_passes_void hslot hleft hf hu hst
    · rw [seek_examines hk hslot hleft hf hu hst, if_neg (Bool.eq_false_iff.1 hearlier)]
      rfl
    · exact seek_leaves_segment hslot hleft hf hu hst hseg
    · rw [seekBack_leaves_segment hslot hleft hb hu hv, leaveBackward_of_later hleft hseg]
      rfl
    · exact seekBack_passes_record hslot hleft hb hu hv hst
    · rw [seekBack_examines hk hslot hleft hb hu hv hst, if_neg (Bool.eq_false_iff.1 hlater)]
      rfl
  case reaches =>
    intro r reached
    refine ⟨fun hf hu hst hreach => ?_, fun u hb hu hv hst hreach => ?_, fun hf hu hseg hst => ?_, fun hb hu hseg hv => ?_⟩
    · rw [seek_examines hk hslot hleft hf hu hst, if_pos hreach, endSeek_of_forward _ hf]
      exact hends sc.owed ..
    · rw [seekBack_examines hk hslot hleft hb hu hv hst, if_pos hreach, endSeek_of_backward _ hb]
      exact hends sc.owed ..
    · exact (seek_ends_at_place hk hslot hleft hf hu hst hseg).trans (hends sc.owed ..)
    · rw [seekBack_leaves_segment hslot hleft hb hu hv, leaveBackward_of_seek hk hb hseg]
      exact hends sc.owed ..

end Sys2Proof.Machine
end

section
/-! SUPPORT. Verification of a record: its four tests, and the node sequences ahead of last_seq (R141 to R143). -/

namespace Sys2Proof.Machine

/-! ## Ahead (R142) -/

/-- The difference R142 tests is the distance from last_seq forward to the node sequence. -/
theorem ahead_some_iff {l q : Nat} (hl : l < 256) (hq : q < 256) :
    ahead (some l) q = true ↔ ∃ d, 1 ≤ d ∧ d ≤ 127 ∧ q = (l + d) % 256 := by
  simp only [ahead, Bool.and_eq_true, decide_eq_true_eq]
  constructor
  · intro ⟨hlow, hhigh⟩
    exact ⟨(q + 256 - l) % 256, hlow, hhigh, by omega⟩
  · rintro ⟨d, hlow, hhigh, rfl⟩
    omega

theorem ahead_some_behind {l k : Nat} (hl : l < 256) (hk : k < 129) : ahead (some l) ((l + 256 - k) % 256) = false := by
  rw [← Bool.not_eq_true, ahead_some_iff hl (Nat.mod_lt _ (by omega))]
  rintro ⟨d, hlow, hhigh, heq⟩
  omega

/-! ## The four tests (R141, R143) -/

section

variable {arrival : Stamp} {unset : Bool} {n : Node} {r : BurstRecord}

theorem verifyRecord_of_badCheck (h : r.checkOk = false) :
    verifyRecord arrival unset n r = ({ n with badChecks := sat16 (n.badChecks + 1) }, { r with res := .badCheck }) :=
  if_pos (by simp [h])

theorem verifyRecord_of_refused (h : r.checkOk = true) (hn : (n.enabled && n.permits r.cls) = false) :
    verifyRecord arrival unset n r = ({ n with refused := sat16 (n.refused + 1) }, { r with res := .refused }) :=
  (if_neg (by simp [h])).trans (if_pos (by simp only [hn, Bool.not_false]))

theorem verifyRecord_of_duplicate (h : r.checkOk = true) (hn : (n.enabled && n.permits r.cls) = true)
    (ha : ahead n.lastSeq r.nodeSeq = false) :
    verifyRecord arrival unset n r = ({ n with duplicates := sat16 (n.duplicates + 1) }, { r with res := .duplicate }) :=
  (if_neg (by simp [h])).trans ((if_neg (by simp only [hn, Bool.not_true, Bool.false_eq_true, not_false_eq_true])).trans
    (if_pos (by simp [ha])))

theorem verifyRecord_of_taken (h : r.checkOk = true) (hn : (n.enabled && n.permits r.cls) = true)
    (ha : ahead n.lastSeq r.nodeSeq = true) : verifyRecord arrival unset n r =
      ({ n with lastSeq := some r.nodeSeq, pending := n.pending + 1 },
        { r with res := .queued, stamp := arrival.lessAge r.age, unset := unset }) :=
  (if_neg (by simp [h])).trans ((if_neg (by simp only [hn, Bool.not_true, Bool.false_eq_true, not_false_eq_true])).trans
    (if_neg (by simp [ha])))

end

/-! ## The statement on ahead -/

/-- Settles O43: modulo 256 the distance determines the sequence, and it alone decides between the last two tests. -/
theorem aheadByNodeSequence : Obligations.AheadByNodeSequence := by
  unfold Obligations.AheadByNodeSequence
  refine ⟨fun l q => ahead_some_iff, fun l k => ahead_some_behind, fun q => rfl,
    fun arrival unset n r hcheck hon hcls hset => ?_⟩
  have hnode : (n.enabled && n.permits r.cls) = true := by simp [Node.permits, hon, hcls, hset]
  cases ha : ahead n.lastSeq r.nodeSeq with
  | true => simp [verifyRecord_of_taken hcheck hnode ha]
  | false => simp [verifyRecord_of_duplicate hcheck hnode ha]

end Sys2Proof.Machine
end

section
/-! SUPPORT. The receiver: how it leaves a burst, what it does with a character in each of its states, the header and the
records (R130, R135 to R139). -/

namespace Sys2Proof.Machine

/-! ## The way to WAIT_IDLE, IDLE and ACKING (R130, R131) -/

namespace Cp

variable {p : Cp}

theorem enterAcking_of_empty (hq : p.queue = []) : p.enterAcking = p := if_neg fun h => h.2 hq

theorem enterAcking_of_busy (h : p.receiver ≠ .idle) (hw : p.receiver ≠ .waitIdle) : p.enterAcking = p :=
  if_neg fun hr => hr.1.elim h hw

/-- A receiver that goes to IDLE or WAIT_IDLE stays there only with no acknowledge due. -/
theorem enterAcking_of_quiet (st : Receiver) (hst : st = .idle ∨ st = .waitIdle) :
    enterAcking { p with reception := none, receiver := st } =
      { p with
        reception := none
        receiver := if p.queue = [] then st else .acking
        resume := if p.queue = [] then p.resume else st } := by
  by_cases hq : p.queue = []
  · rw [enterAcking_of_empty (by exact hq), if_pos hq, if_pos hq]
  · rw [enterAcking, if_pos ⟨hst, hq⟩, if_neg hq, if_neg hq]

theorem toWaitIdle_eq : p.toWaitIdle =
    { p with
      reception := none
      receiver := if p.queue = [] then .waitIdle else .acking
      resume := if p.queue = [] then p.resume else .waitIdle } := enterAcking_of_quiet .waitIdle (.inr rfl)

theorem toIdle_eq : p.toIdle =
    { p with
      reception := none
      receiver := if p.queue = [] then .idle else .acking
      resume := if p.queue = [] then p.resume else .idle } := enterAcking_of_quiet .idle (.inl rfl)

/-! ## The burst in reception is thrown away (R138, R152) -/

theorem dropReception_of_none (hr : p.reception = none) : p.dropReception = p := by
  unfold dropReception; rw [hr]

theorem dropReception_of_unclaimed {r : Reception} (hr : p.reception = some r) (hi : r.slot = none) :
    p.dropReception = { p with reception := none } := by
  unfold dropReception
  simp only [hr, hi]

theorem dropReception_of_claimed {r : Reception} {i : Fin 2} (hr : p.reception = some r) (hi : r.slot = some i) :
    p.dropReception = { p with reception := none, slots := p.slots.set i none } := by
  unfold dropReception
  simp only [hr, hi]
  rfl

end Cp

/-- A framing failure releases the slot, counts, latches CAPTURE and leaves the burst (R138). -/
theorem framingFailure_eq (s : State) : framingFailure s =
    { s with
      cp := { s.cp with
        framing := sat16 (s.cp.framing + 1), reception := none, slots := s.cp.dropReception.slots
        receiver := if s.cp.queue = [] then .waitIdle else .acking
        resume := if s.cp.queue = [] then s.cp.resume else .waitIdle }
      hp := { s.hp with events := s.hp.events ||| 0x08 } } := by
  unfold framingFailure
  simp only [State.onCp, Cp.toWaitIdle_eq]
  rw [Cp.dropReception_eq]
  rfl

section

variable {s : State} {c : Byte} {r : Reception}

/-! ## One character (R135 to R139) -/

theorem exec_characterReceived_of_deaf (good : Bool)
    (h : s.cp.receiver = .disabled ∨ s.cp.receiver = .acking ∨ s.cp.receiver = .waitIdle) :
    exec (.characterReceived c good) s = .next s := by
  change Host.Outcome.next (receive c good s) = _
  unfold receive
  obtain h | h | h := h <;> rw [h]

theorem exec_characterReceived_of_idle (good : Bool) (h : s.cp.receiver = .idle) :
    exec (.characterReceived c good) s = .next { s with cp := if good = true ∧ c = preambleByte then
      { s.cp with reception := some Reception.fresh, receiver := .header } else s.cp.toWaitIdle } := by
  change Host.Outcome.next (receive c good s) = _
  unfold receive; rw [h]
  exact congrArg _ (apply_ite (fun p => { s with cp := p }) _ _ _).symm

theorem exec_characterReceived_of_header (good : Bool) (h : s.cp.receiver = .header) :
    exec (.characterReceived c good) s = .next (if good then s.onCp (Cp.headerByte c) else framingFailure s) := by
  change Host.Outcome.next (receive c good s) = _
  unfold receive; rw [h]

theorem exec_characterReceived_of_records (good : Bool) (hr : s.cp.reception = some r)
    (h : s.cp.receiver = .records ∨ (s.cp.receiver = .discard ∧ r.complete < r.count)) :
    exec (.characterReceived c good) s = .next (if good then recordByte c r s else framingFailure s) := by
  change Host.Outcome.next (receive c good s) = _
  unfold receive
  obtain h | ⟨h, hmore⟩ := h
  · simp only [h, recordsByte, hr]
  · simp only [h, hr, hmore, if_true, recordsByte]

theorem exec_characterReceived_of_trailer (good : Bool) (hr : s.cp.reception = some r)
    (h : s.cp.receiver = .trailer ∨ (s.cp.receiver = .discard ∧ r.count ≤ r.complete)) :
    exec (.characterReceived c good) s =
      .next (if good ∧ c = endMarkerByte then endMarker r s else framingFailure s) := by
  change Host.Outcome.next (receive c good s) = _
  unfold receive
  obtain h | ⟨h, hall⟩ := h
  · simp only [h, trailerByte, hr]
  · simp only [h, hr, Nat.not_lt.2 hall, if_false, trailerByte]

/-- A bad character inside a burst is a framing failure, whatever part of the burst it falls in (R138). -/
theorem exec_characterReceived_of_bad (hr : s.cp.reception = some r)
    (h : s.cp.receiver = .header ∨ s.cp.receiver = .records ∨ s.cp.receiver = .trailer ∨ s.cp.receiver = .discard) :
    exec (.characterReceived c false) s = .next (framingFailure s) := by
  obtain h | h | h | h := h
  · rw [exec_characterReceived_of_header false h]; rfl
  · rw [exec_characterReceived_of_records false hr (.inl h)]; rfl
  · rw [exec_characterReceived_of_trailer false hr (.inl h), if_neg (fun hgood => Bool.noConfusion hgood.1)]
  · obtain hmore | hall := Nat.lt_or_ge r.complete r.count
    · rw [exec_characterReceived_of_records false hr (.inr ⟨h, hmore⟩)]; rfl
    · rw [exec_characterReceived_of_trailer false hr (.inr ⟨h, hall⟩), if_neg (fun hgood => Bool.noConfusion hgood.1)]

theorem insideBurst_iff (st : Receiver) :
    st.insideBurst = true ↔ st = .header ∨ st = .records ∨ st = .trailer ∨ st = .discard := by
  cases st <;> decide

theorem exec_gapTimeout_of_inside
    (h : s.cp.receiver = .header ∨ s.cp.receiver = .records ∨ s.cp.receiver = .trailer ∨ s.cp.receiver = .discard) :
    exec .gapTimeout s = .next (framingFailure s) :=
  congrArg Host.Outcome.next (if_pos ((insideBurst_iff _).2 h))

theorem exec_gapTimeout_of_outside (h : s.cp.receiver.insideBurst = false) : exec .gapTimeout s = .next s :=
  congrArg Host.Outcome.next (if_neg (by simp [h]))

/-! ## The header (R136) -/

theorem headerGood_iff (a b k c : Byte) :
    headerGood [a, b, k, c] = true ↔ crc8 [a, b, k] = c ∧ a.toNat ≤ 7 ∧ k.toNat ≤ 6 := by
  simp [headerGood, rd8, and_assoc]

theorem Cp.headerByte_of_early {p : Cp} (hr : p.reception = some r) (h : r.header.length < 3) :
    p.headerByte c = { p with reception := some { r with header := r.header ++ [c] } } := by
  unfold Cp.headerByte
  simp only [hr]
  exact if_pos (by simp only [List.length_append, List.length_singleton]; omega)

theorem Cp.headerByte_of_last {p : Cp} {a b k : Byte} (hr : p.reception = some r) (h : r.header = [a, b, k]) :
    p.headerByte c = p.headerDone [a, b, k, c] := by
  unfold Cp.headerByte
  simp only [hr, h]
  rfl

theorem Cp.headerDone_of_bad {p : Cp} {h : List Byte} (hbad : headerGood h = false) :
    p.headerDone h = Cp.toWaitIdle { p with badHeaders := sat16 (p.badHeaders + 1) } := if_neg (by simp [hbad])

theorem Cp.headerDone_of_probe {p : Cp} {h : List Byte} (hgood : headerGood h = true) (hk : rd8 h 2 = 0) :
    p.headerDone h = { p with reception := some (Reception.ofHeader h none), receiver := .trailer } :=
  (if_pos hgood).trans (if_pos hk)

/-- A good header of records claims the slot that is free, or is received in DISCARD (R136). -/
theorem Cp.headerDone_of_records {p : Cp} {h : List Byte} (hgood : headerGood h = true) (hk : rd8 h 2 ≠ 0) :
    p.headerDone h =
      match p.freeIndex with
      | some i =>
        { p with
          reception := some (Reception.ofHeader h (some i)), receiver := .records
          slots := p.slots.set i (some (Burst.claimed (Reception.ofHeader h (some i)))) }
      | none => { p with reception := some (Reception.ofHeader h none), receiver := .discard } :=
  (if_pos hgood).trans (if_neg hk)

theorem Cp.freeIndex_of_first {p : Cp} (h0 : p.slots[0] = none) : p.freeIndex = some 0 := if_pos (by simp [h0])

theorem Cp.freeIndex_of_second {p : Cp} (h0 : p.slots[0] ≠ none) (h1 : p.slots[1] = none) : p.freeIndex = some 1 :=
  (if_neg (by simpa using h0)).trans (if_pos (by simp [h1]))

theorem Cp.freeIndex_of_full {p : Cp} (h0 : p.slots[0] ≠ none) (h1 : p.slots[1] ≠ none) : p.freeIndex = none :=
  (if_neg (by simpa using h0)).trans (if_neg (by simpa using h1))

/-! ## The records (R137, R139) -/

theorem recordByte_of_tooLong (h : 232 < rd8 (r.current ++ [c]) 0) : recordByte c r s = framingFailure s := if_pos h

theorem recordByte_of_more (h : rd8 (r.current ++ [c]) 0 ≤ 232)
    (hmore : (r.current ++ [c]).length < 7 + rd8 (r.current ++ [c]) 0) :
    recordByte c r s = s.onCp (fun p => { p with reception := some { r with current := r.current ++ [c] } }) :=
  (if_neg (Nat.not_lt.2 h)).trans (if_pos hmore)

theorem recordByte_of_complete (h : rd8 (r.current ++ [c]) 0 ≤ 232)
    (hlast : (r.current ++ [c]).length = 7 + rd8 (r.current ++ [c]) 0) :
    recordByte c r s = s.onCp (Cp.recordComplete r (r.current ++ [c])) :=
  (if_neg (Nat.not_lt.2 h)).trans (if_neg (Nat.not_lt.2 hlast.ge))

theorem Cp.recordComplete_of_unclaimed {p : Cp} (l : List Byte) (hi : r.slot = none) : p.recordComplete r l =
    { p with reception := some { r with complete := r.complete + 1, current := [] } } := by
  unfold Cp.recordComplete
  simp only [hi]

/-- A complete record joins those of its slot, and the last one is followed by the end marker (R137). -/
theorem Cp.recordComplete_of_claimed {p : Cp} {i : Fin 2} {b : Burst} (l : List Byte) (hi : r.slot = some i)
    (hb : p.slots[i] = some b) : p.recordComplete r l =
      { p with
        reception := some { r with complete := r.complete + 1, current := [] }
        receiver := if r.complete + 1 = r.count then .trailer else p.receiver
        slots := p.slots.set i (some { b with records := b.records ++ [BurstRecord.ofBytes l] }) } := by
  unfold Cp.recordComplete Cp.onSlot vmod
  simp only [hi, hb]
  split <;> rfl

end

end Sys2Proof.Machine
end

section
/-! SUPPORT. The statement on the bytes of a burst (R130, R135 to R139; log 11). -/

namespace Sys2Proof.Machine

/-- Settles O44: the receiver's state and the bytes taken so far choose what a character does, and a framing failure is one
operation wherever it comes from. -/
theorem burstBytesAreTaken : Obligations.BurstBytesAreTaken := by
  unfold Obligations.BurstBytesAreTaken
  refine ⟨⟨fun s c => ⟨fun good => exec_characterReceived_of_deaf good, fun good h hq => ?idle, fun r h hr => ?header⟩,
    fun s r c hr h => ?records⟩, fun s r hr h => ?failure, fun s h => exec_gapTimeout_of_outside ?outside,
    fun s h hq => ?elapsed⟩
  case idle =>
    rw [exec_characterReceived_of_idle good h, Cp.toWaitIdle_eq, if_pos hq, if_pos hq]
    rfl
  case header =>
    have hexec : exec (.characterReceived c true) s = .next (s.onCp (Cp.headerByte c)) :=
      exec_characterReceived_of_header true h
    refine ⟨fun hlen => ?early, fun a b k hthree => ?fourth⟩
    case early => rw [hexec, State.onCp, Cp.headerByte_of_early hr hlen]
    case fourth =>
      have hdone : exec (.characterReceived c true) s = .next { s with cp := s.cp.headerDone [a, b, k, c] } := by
        rw [hexec, State.onCp, Cp.headerByte_of_last hr hthree]
      have hzero : rd8 [a, b, k, c] 2 = 0 ↔ k = 0 := BitVec.toNat_eq (y := 0).symm
      have hfull (hgood : headerGood [a, b, k, c] = true) (hk : k ≠ 0) :=
        Cp.headerDone_of_records (p := s.cp) hgood (mt hzero.1 hk)
      intro good begun goesOn claimed
      refine ⟨fun hbad => ?_, fun hgood hk => ?_, fun hgood hk h0 => ?_, fun hgood hk h0 h1 => ?_, fun hgood hk h0 h1 => ?_⟩
      · have hbad' : headerGood [a, b, k, c] = false := Bool.eq_false_iff.2 (mt (headerGood_iff a b k c).1 hbad)
        rw [hdone, Cp.headerDone_of_bad hbad', Cp.toWaitIdle_eq]
        rfl
      · rw [hdone, Cp.headerDone_of_probe ((headerGood_iff a b k c).2 hgood) (hzero.2 hk)]
        rfl
      · rw [hdone, hfull ((headerGood_iff a b k c).2 hgood) hk, Cp.freeIndex_of_first h0]
        rfl
      · rw [hdone, hfull ((headerGood_iff a b k c).2 hgood) hk, Cp.freeIndex_of_second h0 h1]
        rfl
      · rw [hdone, hfull ((headerGood_iff a b k c).2 hgood) hk, Cp.freeIndex_of_full h0 h1]
        rfl
  case records =>
    intro l len hlen
    have hexec : exec (.characterReceived c true) s = .next (recordByte c r s) := exec_characterReceived_of_records true hr h
    refine ⟨fun hmore => ?_, fun hlast hi => ?_, fun i b hlast hi hb => ?_⟩
    · rw [hexec, recordByte_of_more hlen hmore]
      rfl
    · rw [hexec, recordByte_of_complete hlen hlast, State.onCp, Cp.recordComplete_of_unclaimed l hi]
    · rw [hexec, recordByte_of_complete hlen hlast, State.onCp, Cp.recordComplete_of_claimed l hi hb]
      rfl
  case failure =>
    intro failed records trailer
    have hfailed : framingFailure s = failed := by
      rw [framingFailure_eq]
      simp only [failed]
      cases hi : r.slot with
      | none => rw [Cp.dropReception_of_unclaimed hr hi]; rfl
      | some i => rw [Cp.dropReception_of_claimed hr hi]; rfl
    rw [← hfailed]
    refine ⟨exec_gapTimeout_of_inside h, fun c => exec_characterReceived_of_bad hr h,
      fun c ht hc => ?_, fun c ht hl hc => ?_⟩
    · rw [exec_characterReceived_of_trailer true hr ht, if_neg fun hgood => hc hgood.2]
    · rw [exec_characterReceived_of_records true hr ht, if_pos rfl, recordByte_of_tooLong (by rw [hl]; exact hc)]
  case elapsed =>
    change Host.Outcome.next (ite _ _ _) = _
    rw [if_pos h, State.onCp, Cp.enterAcking_of_empty (by exact hq)]
  case outside => obtain h | h | h | h := h <;> rw [h] <;> rfl

end Sys2Proof.Machine
end

section
/-! SUPPORT. The acknowledge of a burst slot: what setting it, dropping it and settling the slot leave of a slot that holds a
burst (R144, R146, R152). -/

namespace Sys2Proof.Machine

namespace Cp

variable {p : Cp} {i : Fin 2} {b : Burst}

theorem freeSlot_eq : p.freeSlot i =
    { p with slots := p.slots.set i none, order := p.order.filter (fun j => j != i) } := rfl

/-- A slot just written and then freed is the slot freed. -/
theorem freeSlot_of_set (o : Option Burst) : freeSlot i { p with slots := p.slots.set i o } = p.freeSlot i := by
  simp [freeSlot, vmod]

theorem setAck_of_some (a : AckState) (hb : p.slots[i] = some b) :
    p.setAck i a = { p with slots := p.slots.set i (some { b with ack := a, beatsLeft := none }) } :=
  onSlot_of_some p _ hb

theorem settleSlot_of_some (hb : p.slots[i] = some b) : p.settleSlot i =
    if b.allResolved = true ∧ (b.ack = .sent ∨ b.ack = .dropped) then p.freeSlot i else p := by
  unfold settleSlot
  simp only [hb, Bool.and_eq_true, Bool.or_eq_true, beq_iff_eq]

/-- An acknowledge sent or dropped frees the slot when all its records are resolved (R144). -/
theorem settleSlot_setAck {a : AckState} (ha : a = .sent ∨ a = .dropped) (hb : p.slots[i] = some b) :
    (p.setAck i a).settleSlot i =
      if b.allResolved then p.freeSlot i
      else { p with slots := p.slots.set i (some { b with ack := a, beatsLeft := none }) } := by
  rw [setAck_of_some a hb, settleSlot_of_some (b := { b with ack := a, beatsLeft := none }) (by simp), freeSlot_of_set]
  exact if_congr (and_iff_left ha) rfl rfl

theorem dropAck_of_some (hb : p.slots[i] = some b) : p.dropAck i =
    if b.allResolved then freeSlot i { p with acksDropped := sat16 (p.acksDropped + 1) }
    else { p with
      slots := p.slots.set i (some { b with ack := .dropped, beatsLeft := none })
      acksDropped := sat16 (p.acksDropped + 1) } :=
  settleSlot_setAck (p := { p with acksDropped := sat16 (p.acksDropped + 1) }) (.inr rfl) hb

/-- An acknowledge that falls due joins the queue, but while the receiver is DISABLED (R146). -/
theorem fallDue_of_some (hb : p.slots[i] = some b) (h : p.receiver ≠ .disabled) : p.fallDue i =
    { p with
      slots := p.slots.set i (some { b with ack := .due, beatsLeft := none }), queue := p.queue ++ [.slot i] } := by
  rw [fallDue_of_not_disabled h, setAck_of_some .due hb]

end Cp

end Sys2Proof.Machine
end

section
/-! SUPPORT. The end marker: verification of the burst in a slot, and the answers to a probe and to a DISCARD burst (R137,
R139 to R143, R146). -/

namespace Sys2Proof.Machine

/-! ## Verification of a burst (R141) -/

section

variable (arrival : Stamp) (unset : Bool)

/-- The four tests leave a record resolved or queued. -/
theorem verifyRecord_isResolved (n : Node) (r : BurstRecord) :
    (verifyRecord arrival unset n r).2.res.isResolved = !((verifyRecord arrival unset n r).2.res == .queued) := by
  unfold verifyRecord
  split_ifs <;> rfl

/-- After verification all records are resolved exactly when none is queued. -/
theorem verifyRecords_all_isResolved (n : Node) (l : List BurstRecord) :
    (verifyRecords arrival unset n l).2.all (fun x => x.res.isResolved) =
      !(verifyRecords arrival unset n l).2.any (fun x => x.res == .queued) := by
  induction l generalizing n with
  | nil => rfl
  | cons r l ih =>
    change (Bool.and _ _) = !(Bool.or _ _)
    rw [Bool.not_or, ← verifyRecord_isResolved, ← ih]

/-- A burst as verification leaves it, its records resolved and its window begun. -/
def Burst.verifiedAt (arrival : Stamp) (window : Nat) (records : List BurstRecord) (b : Burst) : Burst :=
  { b with records := records, verified := true, arrival := arrival, windowLen := window, beatsLeft := some window }

/-- The records of burst `b` as verification leaves them, and their node's entry. -/
def Cp.verification (b : Burst) (p : Cp) : Node × List BurstRecord :=
  verifyRecords arrival unset (p.nodes[b.node]).countBurst b.records

section

variable {p : Cp} {i : Fin 2} {b : Burst}

theorem Cp.verify_of_some (hb : p.slots[i] = some b) : p.verify arrival unset i =
    Cp.afterResolution i { p with
      nodes := p.nodes.set b.node (p.verification arrival unset b).1
      slots := p.slots.set i (some (b.verifiedAt arrival p.window (p.verification arrival unset b).2))
      order := p.order ++ [i] } := by
  unfold Cp.verify Cp.onSlot Cp.onNode vmod
  simp only [hb]
  rfl

theorem Burst.allResolved_verifiedAt (window : Nat) :
    (b.verifiedAt arrival window (p.verification arrival unset b).2).allResolved =
      !(p.verification arrival unset b).2.any (fun x => x.res == .queued) :=
  verifyRecords_all_isResolved ..

/-- With a record queued the acknowledge waits for its window (R146). -/
theorem Cp.verify_of_taken (hb : p.slots[i] = some b)
    (htaken : (p.verification arrival unset b).2.any (fun x => x.res == .queued) = true) :
    p.verify arrival unset i = { p with
      nodes := p.nodes.set b.node (p.verification arrival unset b).1
      slots := p.slots.set i (some (b.verifiedAt arrival p.window (p.verification arrival unset b).2))
      order := p.order ++ [i] } := by
  rw [verify_of_some arrival unset hb, afterResolution_of_some (by simp; rfl), Burst.allResolved_verifiedAt, htaken]
  rfl

/-- With no record queued the acknowledge is due at once (R146). -/
theorem Cp.verify_of_none_taken (hb : p.slots[i] = some b) (ha : b.ack = .notDue) (hp : p.receiver ≠ .disabled)
    (htaken : (p.verification arrival unset b).2.any (fun x => x.res == .queued) = false) :
    p.verify arrival unset i = { p with
      nodes := p.nodes.set b.node (p.verification arrival unset b).1
      slots := p.slots.set i (some
        { b.verifiedAt arrival p.window (p.verification arrival unset b).2 with ack := .due, beatsLeft := none })
      order := p.order ++ [i]
      queue := p.queue ++ [.slot i] } := by
  have hslot (x : Burst) : (p.slots.set i (some x))[i] = some x := by simp
  rw [verify_of_some arrival unset hb, afterResolution_of_some (hslot _), Burst.allResolved_verifiedAt, htaken,
    Bool.not_false, if_pos rfl, if_pos (by exact ha), fallDue_of_some (hslot _) (by exact hp)]
  simp only [Vector.set_set]

end

end

/-! ## The answers (R137, R139, R140) -/

section

variable {s : State} {r : Reception}

theorem endMarker_of_claimed {i : Fin 2} (hi : r.slot = some i) :
    endMarker r s = s.onCp (fun p => (p.verify s.tb.now (!s.tb.isSet) i).toIdle) := by
  unfold endMarker; rw [hi]

theorem endMarker_of_probe (hi : r.slot = none) (hk : r.count = 0) :
    endMarker r s = s.onCp (fun p => (p.probeDone r).toIdle) := by
  unfold endMarker; rw [hi]; exact if_pos hk

theorem endMarker_of_discard (hi : r.slot = none) (hk : r.count ≠ 0) :
    endMarker r s = latch .capture (s.onCp (fun p => (p.discardDone r).toIdle)) := by
  unfold endMarker; rw [hi]; exact if_neg hk

/-- A disabled node's records count as refused, another's as no-room (R139). -/
theorem Node.countDiscard_eq (k : Nat) (n : Node) : n.countDiscard k =
    { n with
      bursts := sat16 (n.bursts + 1)
      noRoom := if n.enabled then sat16 (n.noRoom + k) else n.noRoom
      refused := if n.enabled then n.refused else sat16 (n.refused + k) } := by
  unfold Node.countDiscard Node.countBurst
  cases n.enabled <;> simp

/-- An acknowledge that falls due at the end marker is sent at once (R137). -/
theorem Cp.toIdle_of_due {p : Cp} (hq : p.queue ≠ []) :
    p.toIdle = { p with reception := none, receiver := .acking, resume := .idle } := by
  rw [Cp.toIdle_eq, if_neg hq, if_neg hq]

end

/-! ## The statement on the end marker -/

/-- Settles O45: the end marker ends the burst, and what it left of the burst's records decides whether an
acknowledge is due. -/
theorem endMarkerResolvesBurst : Obligations.EndMarkerResolvesBurst := by
  unfold Obligations.EndMarkerResolvesBurst
  refine ⟨fun arrival unset n x => ?tests, fun s r i b ht hr hi hb ha hq => ?slot, fun s r hr hi => ?answers⟩
  case tests =>
    intro ofNode
    cases hc : x.checkOk with
    | false => exact verifyRecord_of_badCheck hc
    | true =>
      cases hn : ofNode with
      | false => exact verifyRecord_of_refused hc hn
      | true =>
        cases ha : ahead n.lastSeq x.nodeSeq with
        | false => exact verifyRecord_of_duplicate hc hn ha
        | true => exact verifyRecord_of_taken hc hn ha
  case slot =>
    intro node v taken
    have hdisabled : s.cp.receiver ≠ .disabled := by simp [ht]
    rw [exec_characterReceived_of_trailer true hr (.inl ht), if_pos ⟨rfl, rfl⟩, endMarker_of_claimed hi, State.onCp]
    cases htaken : taken with
    | true =>
      rw [Cp.verify_of_taken _ _ hb htaken, Cp.toIdle_eq, if_pos hq, if_pos hq, ← ha, ← hq]
      rfl
    | false =>
      rw [Cp.verify_of_none_taken _ _ hb ha hdisabled htaken, Cp.toIdle_of_due (by simp), hq]
      rfl
  case answers =>
    intro node
    refine ⟨fun ht hk => ?probe, fun hd hk hall => ?discard⟩
    case probe =>
      rw [exec_characterReceived_of_trailer true hr (.inl ht), if_pos ⟨rfl, rfl⟩, endMarker_of_probe hi hk, State.onCp,
        Cp.toIdle_of_due (by simp [Cp.probeDone])]
      rfl
    case discard =>
      rw [exec_characterReceived_of_trailer true hr (.inr ⟨hd, hall.ge⟩), if_pos ⟨rfl, rfl⟩, endMarker_of_discard hi hk,
        State.onCp, Cp.toIdle_of_due (by simp [Cp.discardDone])]
      simp only [Cp.discardDone, Cp.onNode, vmod, Node.countDiscard_eq]
      rfl

end Sys2Proof.Machine
end

section
/-! SUPPORT. A commit notice at the CP: the node's watermark moves, and the resolution may free the slot or make its
acknowledge due (R145, R146, R152, R156). -/

namespace Sys2Proof.Machine

namespace Cp

variable {p : Cp} {i : Fin 2} {b : Burst}

/-- The four ends of a resolution in a slot that holds burst `b` (R144 to R146, R152). -/
theorem afterResolution_cases (hb : p.slots[i] = some b) : p.afterResolution i =
    if b.allResolved = true ∧ (b.ack = .sent ∨ b.ack = .dropped) then p.freeSlot i
    else if b.allResolved = true ∧ b.ack = .notDue ∧ p.receiver = .disabled then
      freeSlot i { p with acksDropped := sat16 (p.acksDropped + 1) }
    else if b.allResolved = true ∧ b.ack = .notDue then { p with
      slots := p.slots.set i (some { b with ack := .due, beatsLeft := none }), queue := p.queue ++ [.slot i] }
    else p := by
  rw [afterResolution_of_some hb]
  cases hres : b.allResolved with
  | false => simp
  | true =>
    cases hack : b.ack with
    | notDue =>
      by_cases hd : p.receiver = .disabled
      · simp [fallDue_of_disabled hd, dropAck_of_some hb, hres, hd]
      · simp [fallDue_of_some hb hd, hd]
    | due | sent | dropped => simp

theorem recordCommitted_of_some (n : CpNotice) (hb : p.slots[n.slot] = some b) : p.recordCommitted n =
    Cp.enterAcking (Cp.afterResolution n.slot { p with
      nodes := p.nodes.set b.node ((p.nodes[b.node]).committed n.notice.nodeSeq n.oldJournal)
      slots := p.slots.set n.slot (some (b.resolve n.place .committed)) }) := by
  unfold recordCommitted onSlot onNode vmod
  simp only [hb]
  rfl

end Cp

theorem exec_cpCommitNotice_of_stopped {s : State} {n : CpNotice} {rest : List CpNotice} (hn : s.cp.notices = n :: rest)
    (hs : s.cp.stopped = true) : exec .cpCommitNotice s = .next { s with cp := { s.cp with notices := rest } } := by
  change execCpCommitNotice s = _
  unfold execCpCommitNotice
  simp only [hn]
  exact congrArg _ (if_pos hs)

theorem exec_cpCommitNotice_of_running {s : State} {n : CpNotice} {rest : List CpNotice} (hn : s.cp.notices = n :: rest)
    (hs : s.cp.stopped = false) :
    exec .cpCommitNotice s = .next { s with cp := Cp.recordCommitted n { s.cp with notices := rest } } := by
  change execCpCommitNotice s = _
  unfold execCpCommitNotice
  simp only [hn]
  exact congrArg _ (if_neg (by simp [hs]))

/-- Settles O47: the notice resolves its record, and the slot ends as `Cp.afterResolution_cases` says. -/
theorem commitNoticeMovesWatermark : Obligations.CommitNoticeMovesWatermark := by
  unfold Obligations.CommitNoticeMovesWatermark
  refine fun s i k c before rest hn => ⟨exec_cpCommitNotice_of_stopped hn, fun b r hs hb hr => ?_⟩
  intro node records all taken acking
  have hslot : (s.cp.slots.set i (some { b with records := records }))[i] = some { b with records := records } := by simp
  rw [exec_cpCommitNotice_of_running hn hs, Cp.recordCommitted_of_some _ (by exact hb), resolve_of_getElem? hr .committed]
  dsimp only
  rw [Cp.afterResolution_cases (by exact hslot)]
  simp only [Cp.freeSlot_eq, Vector.set_set]
  rfl

end Sys2Proof.Machine
end

section
/-! SUPPORT. CAPTURE_SET applied: the four settings are taken, and a port that goes off drops the acknowledges in its queue
(R152). -/

namespace Sys2Proof.Machine

namespace Cp

variable {p : Cp} {e : Entry}

/-- The four settings of a CAPTURE_SET, with the burst in reception thrown away (R152). -/
def withSettings (e : Entry) (p : Cp) : Cp :=
  { p with
    enabled := e.param 0 == 1, rate := e.param 1, gap := e.param 2, window := e.param 3
    reception := none, slots := p.dropReception.slots }

/-- The acknowledges of a queue dropped one after another (R152). -/
def dropAcks (l : List Ack) (p : Cp) : Cp := l.foldl (fun p a => p.dropQueued a) p

theorem withSettings_of_none (hr : p.reception = none) : p.withSettings e =
    { p with enabled := e.param 0 == 1, rate := e.param 1, gap := e.param 2, window := e.param 3 } := by
  rw [withSettings, dropReception_of_none hr, ← hr]

theorem applySet_of_on (h : e.param 0 = 1) : p.applySet e = (p.withSettings e).toWaitIdle := by
  unfold applySet withSettings
  rw [dropReception_eq]
  exact if_pos h

theorem applySet_of_off (h : e.param 0 ≠ 1) : p.applySet e =
    { dropAcks p.queue { p.withSettings e with receiver := .disabled } with queue := [] } := by
  unfold applySet withSettings
  rw [dropReception_eq]
  exact if_neg h

end Cp

/-- The settings wait for the control block write they ask for (R152). -/
theorem applyCaptureSet_eq (e : Entry) (s : State) : applyCaptureSet e s = requestCopy { s with cp :=
    { s.cp.applySet e with
      slot := some
        { entry := e, phase := .writeWait (if s.js.copyWrite.isSome then .nextWrite else .thisWrite) } } } := rfl

end Sys2Proof.Machine
end

section
/-! SUPPORT. The end of the acknowledge window, the frame of an acknowledge and its end (R134, R146 to R148, R152; log
28). -/

namespace Sys2Proof.Machine

namespace Cp

variable {p : Cp} {i : Fin 2} {b : Burst} {f : Frame} {q : Ack} {rest : List Ack}

theorem enterAcking_of_due (hq : p.queue ≠ []) : p.enterAcking =
    if p.receiver = .idle ∨ p.receiver = .waitIdle then { p with receiver := .acking, resume := p.receiver } else p :=
  if_congr (and_iff_left hq) rfl rfl

theorem frameOf_slot (hb : p.slots[i] = some b) : p.frameOf (.slot i) = some
    { bytes := frameBytes b.node.val b.num (b.records.map (fun x => x.res.sent)) (p.nodes[b.node]).committedSeq
      slot := some i } := by
  unfold frameOf
  simp only [hb]
  rfl

theorem frameSent_of_direct (hf : f.slot = none) (hq : p.queue = q :: rest) : p.frameSent f =
    { p with frame := none, queue := rest, acksSent := sat16 (p.acksSent + 1) } := by
  unfold frameSent
  simp only [hf, hq, List.drop_one, List.tail_cons]

theorem frameSent_of_slot (hf : f.slot = some i) (hq : p.queue = q :: rest) (hb : p.slots[i] = some b) :
    p.frameSent f =
      let sent : Cp := { p with frame := none, queue := rest, acksSent := sat16 (p.acksSent + 1) }
      if b.allResolved then sent.freeSlot i
      else { sent with slots := p.slots.set i (some { b with ack := .sent, beatsLeft := none }) } := by
  unfold frameSent
  simp only [hf, hq, List.drop_one, List.tail_cons]
  rw [settleSlot_setAck (.inl rfl) (by exact hb)]

end Cp

section

variable {s : State} {e : Entry} {i : Fin 2} {b : Burst} {f : Frame} {q : Ack} {rest : List Ack}

theorem exec_acknowledgeWindowEnd_of_over (hb : s.cp.slots[i] = some b) (hover : b.windowOver = true) :
    exec (.acknowledgeWindowEnd i) s = .next { s with cp := (s.cp.fallDue i).enterAcking } := by
  change execAcknowledgeWindowEnd i s = _
  unfold execAcknowledgeWindowEnd
  simp only [hb]
  exact congrArg _ (if_pos hover)

theorem exec_ackFrameStart_of_front (h : s.cp.receiver = .acking) (hf : s.cp.frame = none) (hq : s.cp.queue = q :: rest) :
    exec .ackFrameStart s = .next (s.onCp (fun p => { p with frame := p.frameOf q })) := by
  change execAckFrameStart s = _
  unfold execAckFrameStart
  rw [if_pos ⟨h, by simp [hf]⟩]
  simp only [hq]

theorem exec_ackFrameEnd_of_frame (h : s.cp.receiver = .acking) (hf : s.cp.frame = some f) :
    exec .ackFrameEnd s = .next (afterFrame { s with cp := s.cp.frameSent f }) := by
  change execAckFrameEnd s = _
  unfold execAckFrameEnd
  simp only [hf]
  exact congrArg _ (if_pos h)

theorem afterFrame_of_frameWait (hslot : s.cp.slot = some { entry := e, phase := .frameWait }) :
    afterFrame s = applyCaptureSet e s := by
  unfold afterFrame; rw [hslot]

/-- With no CAPTURE_SET waiting ACKING ends with the queue (R130). -/
theorem afterFrame_of_plain (hslot : ∀ y, s.cp.slot = some y → y.phase ≠ .frameWait) : afterFrame s =
    { s with cp := { s.cp with receiver := if s.cp.queue = [] then s.cp.resume else s.cp.receiver } } := by
  unfold afterFrame
  split
  · next hwait => exact absurd rfl (hslot _ hwait)
  · split <;> rfl

end

/-! ## The statement on acknowledges -/

/-- Settles O46: the operations on the queue's front and its slot, and the CAPTURE_SET that a frame's end applies. -/
theorem acknowledgesAreSent : Obligations.AcknowledgesAreSent := by
  unfold Obligations.AcknowledgesAreSent
  intro s freed
  refine ⟨fun i b hb hv hleft ha => ?windowEnd, fun h hf => ?start, fun f q e h hf hq hslot hwait hr => ?applied,
    fun f q a e h hf hq hslot hwait hr hoff ha => ?dropped, fun f q rest h hf hq hplain => ?sent⟩
  case windowEnd =>
    intro due dropped
    rw [exec_acknowledgeWindowEnd_of_over hb (by simp [Burst.windowOver, hv, hleft, ha])]
    by_cases hd : s.cp.receiver = .disabled
    · have hbusy (p : Cp) (hp : p.receiver = s.cp.receiver) : p.enterAcking = p :=
        Cp.enterAcking_of_busy (by simp [hp, hd]) (by simp [hp, hd])
      rw [if_pos hd, Cp.fallDue_of_disabled hd, Cp.dropAck_of_some hb]
      simp only [dropped]
      rw [hbusy _ (by split <;> rfl)]
      cases b.allResolved <;> rfl
    · rw [if_neg hd, Cp.fallDue_of_some hb hd, Cp.enterAcking_of_due (by simp)]
  case start =>
    intro frame begins
    refine ⟨fun i b rest hq hb => ?_, fun node num codes rest hq => ?_⟩
    · rw [exec_ackFrameStart_of_front h hf hq, State.onCp, Cp.frameOf_slot hb]
      rfl
    · rw [exec_ackFrameStart_of_front h hf hq]
      rfl
  case applied =>
    intro set
    rw [exec_ackFrameEnd_of_frame h hf, Cp.frameSent_of_direct hslot hq, afterFrame_of_frameWait (by exact hwait),
      applyCaptureSet_eq]
    by_cases hon : e.param 0 = 1
    · rw [Cp.applySet_of_on hon, Cp.withSettings_of_none (by exact hr), Cp.toWaitIdle_eq]
      simp only [set, if_pos hon, ← hr]
      rfl
    · rw [Cp.applySet_of_off hon, Cp.withSettings_of_none (by exact hr)]
      simp only [set, if_neg hon]
      rfl
  case dropped =>
    obtain ⟨node, num, codes, rfl⟩ := ha
    refine ⟨_, exec_ackFrameEnd_of_frame h hf, ?_⟩
    rw [Cp.frameSent_of_direct hslot hq, afterFrame_of_frameWait (by exact hwait), applyCaptureSet_eq,
      Cp.applySet_of_off hoff, Cp.withSettings_of_none (by exact hr), requestCopy_eq]
    exact ⟨rfl, rfl, beq_false_of_ne hoff, rfl, rfl, rfl, requestCopy_copyWrite_isSome _⟩
  case sent =>
    intro sent
    have hend (p : Cp) (hp : s.cp.frameSent f = p) (hps : p.slot = s.cp.slot) (hpq : p.queue = rest)
        (hpr : p.receiver = .acking) (hpb : p.resume = s.cp.resume) : exec .ackFrameEnd s = .next { s with cp :=
          { p with receiver := if rest = [] then s.cp.resume else .acking } } := by
      rw [exec_ackFrameEnd_of_frame h hf, hp, afterFrame_of_plain (by simpa only [hps] using hplain)]
      simp only [hpq, hpr, hpb]
    refine ⟨fun hi => ?_, fun i b hi hb => ?_⟩
    · exact hend _ (Cp.frameSent_of_direct hi hq) rfl rfl h rfl
    · have hsent := Cp.frameSent_of_slot hi hq hb
      cases hres : b.allResolved with
      | true =>
        rw [hres] at hsent
        exact hend _ hsent rfl rfl h rfl
      | false =>
        rw [hres] at hsent
        exact hend _ hsent rfl rfl h rfl

end Sys2Proof.Machine
end

section
/-! SUPPORT. The acknowledges of a queue dropped one after another: what each slot, the order of the bursts and the count of
acknowledges dropped become (R144, R152). -/

namespace Sys2Proof.Machine

/-- What a dropped acknowledge leaves of a burst slot: free when all its records are resolved (R144). -/
def Burst.ackDropped (b : Burst) : Option Burst :=
  if b.allResolved then none else some { b with ack := .dropped, beatsLeft := none }

theorem ackDropped_ackDropped (o : Option Burst) :
    (o.bind Burst.ackDropped).bind Burst.ackDropped = o.bind Burst.ackDropped := by
  cases o with
  | none => rfl
  | some b =>
    change (b.ackDropped).bind _ = b.ackDropped
    unfold Burst.ackDropped
    split
    · rfl
    · next h => exact if_neg h

theorem any_allResolved_ackDropped (o : Option Burst) : (o.bind Burst.ackDropped).any Burst.allResolved = false := by
  cases o with
  | none => rfl
  | some b =>
    change (b.ackDropped).any _ = false
    unfold Burst.ackDropped
    split
    · rfl
    · next h => exact Bool.eq_false_iff.2 h

namespace Cp

variable {p : Cp} {i : Fin 2}

theorem dropAck_of_none (hb : p.slots[i] = none) : p.dropAck i = { p with acksDropped := sat16 (p.acksDropped + 1) } := by
  have hset : p.setAck i .dropped = p := by
    unfold setAck onSlot vmod
    rw [hb, Option.map_none, ← hb, Fin.getElem_fin, Vector.set_getElem_self]
  unfold dropAck settleSlot
  simp only [hset, hb]

theorem dropAck_eq : p.dropAck i =
    { p with
      slots := (p.dropAck i).slots, order := (p.dropAck i).order, acksDropped := sat16 (p.acksDropped + 1) } := by
  cases hb : p.slots[i] with
  | none => rw [dropAck_of_none hb]
  | some b => rw [dropAck_of_some hb]; split <;> rfl

theorem getElem_dropAck (j : Fin 2) :
    (p.dropAck i).slots[j] = if i = j then (p.slots[j]).bind Burst.ackDropped else p.slots[j] := by
  by_cases hij : i = j
  · subst hij
    rw [if_pos rfl]
    cases hb : p.slots[i] with
    | none => rw [dropAck_of_none hb]; exact hb
    | some b =>
      rw [dropAck_of_some hb, Option.bind_some, Burst.ackDropped]
      split
      · rw [getElem_freeSlot, if_pos rfl]
      · simp
  · rw [if_neg hij]
    cases hb : p.slots[i] with
    | none => rw [dropAck_of_none hb]
    | some b =>
      rw [dropAck_of_some hb]
      split
      · rw [getElem_freeSlot, if_neg hij]
      · simp [Fin.val_inj, hij]

theorem dropAck_order : (p.dropAck i).order =
    p.order.filter (fun j => !(decide (i = j) && (p.slots[j]).any Burst.allResolved)) := by
  have hkeep (h : (p.slots[i]).any Burst.allResolved = false) :
      p.order.filter (fun j => !(decide (i = j) && (p.slots[j]).any Burst.allResolved)) = p.order := by
    refine List.filter_eq_self.2 fun j _ => ?_
    by_cases hij : i = j
    · rw [← hij, h, Bool.and_false, Bool.not_false]
    · simp [hij]
  cases hb : p.slots[i] with
  | none => rw [dropAck_of_none hb, hkeep (by rw [hb]; rfl)]
  | some b =>
    rw [dropAck_of_some hb]
    split
    · next hres =>
      refine List.filter_congr fun j _ => ?_
      by_cases hij : i = j
      · subst hij
        have hany : (p.slots[i]).any Burst.allResolved = true := by rw [hb]; exact hres
        rw [hany]
        simp
      · simp [hij, Ne.symm hij]
    · next hres => exact (hkeep (by rw [hb]; exact Bool.eq_false_iff.2 hres)).symm

/-! ## One acknowledge of the queue -/

theorem dropQueued_eq (a : Ack) : p.dropQueued a =
    { p with
      slots := (p.dropQueued a).slots, order := (p.dropQueued a).order, acksDropped := sat16 (p.acksDropped + 1) } := by
  cases a with
  | slot i => exact dropAck_eq
  | direct => rfl

theorem getElem_dropQueued (a : Ack) (j : Fin 2) : (p.dropQueued a).slots[j] =
    if a = .slot j then (p.slots[j]).bind Burst.ackDropped else p.slots[j] := by
  cases a with
  | slot i => simpa [dropQueued] using getElem_dropAck j
  | direct => rfl

theorem dropQueued_order (a : Ack) : (p.dropQueued a).order =
    p.order.filter (fun j => !(decide (a = .slot j) && (p.slots[j]).any Burst.allResolved)) := by
  cases a with
  | slot i => simpa [dropQueued] using dropAck_order
  | direct => simp [dropQueued]

/-! ## The whole queue -/

theorem dropAcks_cons (a : Ack) (l : List Ack) : p.dropAcks (a :: l) = (p.dropQueued a).dropAcks l := rfl

theorem dropAcks_eq (l : List Ack) : p.dropAcks l =
    { p with
      slots := (p.dropAcks l).slots, order := (p.dropAcks l).order, acksDropped := (p.dropAcks l).acksDropped } := by
  induction l generalizing p with
  | nil => rfl
  | cons a l ih => rw [dropAcks_cons, ih, dropQueued_eq]

/-- A slot is left as the drop of its acknowledge leaves it, however often the queue names it. -/
theorem getElem_dropAcks (l : List Ack) (j : Fin 2) : (p.dropAcks l).slots[j] =
    if .slot j ∈ l then (p.slots[j]).bind Burst.ackDropped else p.slots[j] := by
  induction l generalizing p with
  | nil => rfl
  | cons a l ih =>
    rw [dropAcks_cons, ih, getElem_dropQueued]
    by_cases ha : a = .slot j
    · rw [if_pos ha, ackDropped_ackDropped, ite_self, if_pos (ha ▸ List.mem_cons_self)]
    · rw [if_neg ha]
      exact if_congr (by simp [Ne.symm ha]) rfl rfl

/-- The bursts whose slots become free leave the order of the bursts. -/
theorem dropAcks_order (l : List Ack) : (p.dropAcks l).order =
    p.order.filter (fun j => !(decide (.slot j ∈ l) && (p.slots[j]).any Burst.allResolved)) := by
  induction l generalizing p with
  | nil => simp [dropAcks]
  | cons a l ih =>
    rw [dropAcks_cons, ih, dropQueued_order, List.filter_filter]
    refine List.filter_congr fun j _ => ?_
    rw [getElem_dropQueued]
    by_cases ha : a = .slot j
    · simp [ha, any_allResolved_ackDropped]
    · simp [ha, Ne.symm ha]

theorem dropAcks_acksDropped (a : Ack) (l : List Ack) :
    (p.dropAcks (a :: l)).acksDropped = sat16 (p.acksDropped + (a :: l).length) := by
  have hone (p : Cp) (a : Ack) : (p.dropQueued a).acksDropped = sat16 (p.acksDropped + 1) := by rw [dropQueued_eq]
  induction l generalizing p a with
  | nil => exact hone p a
  | cons c l ih =>
    rw [dropAcks_cons, ih, hone]
    simp only [sat16, List.length_cons]
    omega

end Cp

end Sys2Proof.Machine
end

section
/-! SUPPORT. The commands in the CP's slot: CAPTURE_SET, NODE_SET and NODE_READ (R152 to R154). -/

namespace Sys2Proof.Machine

section

variable {s : State} {e : Entry}

theorem withCp_of_dispatched {o : Nat} {op : Byte} (f : Entry → State → State)
    (hslot : s.cp.slot = some { entry := e, phase := .dispatched }) (hop : e.opcode = op) (ho : op.toNat = o) :
    withCp o f s = f e s := by
  subst hop
  unfold withCp; rw [hslot]; exact if_pos ho

theorem answerCp_eq (r : Result) (fields : List Byte) : answerCp e r fields s =
    { s with cp := { s.cp with slot := none }, hp := s.hp.post (Response.plain e.tag r fields) } := rfl

/-! ## CAPTURE_SET (R152) -/

theorem captureSet_of_bad (h : 1 < e.param 0 ∨ 3 < e.param 1 ∨ e.param 2 < 2 ∨ e.param 3 = 0 ∨ e.payload ≠ []) :
    captureSet e s = answerCp e .badParam [] s := if_pos h

/-- A good CAPTURE_SET is applied at once, but for one that a frame being sent holds up (R152; log 23). -/
theorem captureSet_of_good (h0 : e.param 0 ≤ 1) (h1 : e.param 1 ≤ 3) (h2 : 2 ≤ e.param 2) (h3 : e.param 3 ≠ 0)
    (hp : e.payload = []) : captureSet e s =
      if s.cp.receiver = .acking ∧ s.cp.frame.isSome then
        s.onCp (fun p => { p with slot := some { entry := e, phase := .frameWait } })
      else applyCaptureSet e s := by
  have hgood : ¬ (1 < e.param 0 ∨ 3 < e.param 1 ∨ e.param 2 < 2 ∨ e.param 3 = 0 ∨ e.payload ≠ []) := by
    simp [hp]; omega
  exact if_neg hgood

theorem Cp.dropReception_slots (p : Cp) : p.dropReception.slots =
    match p.reception with
    | some { slot := some i, .. } => p.slots.set i none
    | _ => p.slots := by
  unfold dropReception
  cases p.reception with
  | none => rfl
  | some r =>
    obtain ⟨header, node, num, count, slot, complete, current⟩ := r
    cases slot <;> rfl

theorem Cp.applySet_off_of_empty {p : Cp} (h : e.param 0 ≠ 1) (hq : p.queue = []) :
    p.applySet e = { p.withSettings e with receiver := .disabled } := by
  rw [applySet_of_off h]
  simp only [withSettings, dropAcks, hq, List.foldl_nil]

/-! ## NODE_SET (R153) -/

theorem Entry.node_of_param {n : Fin 8} (h : e.param 0 = n.val) : e.node = some n := by
  simp [Entry.node, h]

theorem Entry.node_of_high (h : 7 < e.param 0) : e.node = none := dif_neg (by omega)

theorem nodeSet_of_bad
    (h : 7 < e.param 0 ∨ 1 < e.param 1 ∨ 4095 < e.param16 2 ∨ 1 < e.param 4 ∨ e.payload ≠ []) :
    nodeSet e s = answerCp e .badParam [] s := by
  unfold nodeSet
  split
  · rfl
  · next n hn =>
    have hlow : ¬ 7 < e.param 0 := fun hh => by simp [Entry.node_of_high hh] at hn
    exact if_pos (h.resolve_left hlow)

theorem nodeSet_of_good {n : Fin 8} (hn : e.param 0 = n.val) (h1 : e.param 1 ≤ 1) (h2 : e.param16 2 ≤ 4095)
    (h4 : e.param 4 ≤ 1) (hp : e.payload = []) : nodeSet e s = requestCopy { s with cp := { s.cp with
      slot := some { entry := e, phase := .writeWait (carrier s) }
      nodes := s.cp.nodes.set n
        ((s.cp.nodes[n]).set (e.param 1 == 1) (BitVec.ofNat 16 (e.param16 2)) (e.param 4 == 1)) } } := by
  have hgood : ¬ (1 < e.param 1 ∨ 4095 < e.param16 2 ∨ 1 < e.param 4 ∨ e.payload ≠ []) := by simp [hp]; omega
  rw [nodeSet, Entry.node_of_param hn]
  exact if_neg hgood

/-! ## NODE_READ (R154) -/

theorem nodeRead_of_bad (h : 8 < e.param 0 ∨ 1 < e.param 1 ∨ 1 < e.param 2 ∨ e.payload ≠ []) :
    nodeRead e s = answerCp e .badParam [] s := if_pos h

theorem answerCp_onCp_if (r : Result) (fields : List Byte) (c : Prop) [Decidable c] (f : Cp → Cp) :
    answerCp e r fields (if c then s.onCp f else s) =
      { s with
        cp := { (if c then f s.cp else s.cp) with slot := none }
        hp := s.hp.post (Response.plain e.tag r fields) } := by
  split <;> rfl

theorem nodeRead_of_node {n : Fin 8} (hn : e.param 0 = n.val) (h1 : e.param 1 ≤ 1) (h2 : e.param 2 ≤ 1)
    (hp : e.payload = []) : nodeRead e s =
      { s with
        cp := { (if e.param 2 = 1 then s.cp.onNode n (fun x => x.cleared (e.param 1)) else s.cp) with slot := none }
        hp := s.hp.post (Response.plain e.tag .done ((s.cp.nodes[n]).fields (e.param 1))) } := by
  have hgood : ¬ (8 < e.param 0 ∨ 1 < e.param 1 ∨ 1 < e.param 2 ∨ e.payload ≠ []) := by simp [hp]; omega
  rw [nodeRead, if_neg hgood, Entry.node_of_param hn]
  exact answerCp_onCp_if ..

theorem nodeRead_of_port (h8 : e.param 0 = 8) (h1 : e.param 1 ≤ 1) (h2 : e.param 2 ≤ 1) (hp : e.payload = []) :
    nodeRead e s =
      { s with
        cp := { (if e.param 2 = 1 then s.cp.cleared (e.param 1) else s.cp) with slot := none }
        hp := s.hp.post (Response.plain e.tag .done (s.cp.fields (e.param 1))) } := by
  have hgood : ¬ (8 < e.param 0 ∨ 1 < e.param 1 ∨ 1 < e.param 2 ∨ e.payload ≠ []) := by simp [hp]; omega
  rw [nodeRead, if_neg hgood, Entry.node_of_high (by omega)]
  exact answerCp_onCp_if ..

/-- The number of slots in use is that of the two that hold a burst. -/
theorem slots_in_use (v : Vector (Option Burst) 2) :
    (v.toList.filter Option.isSome).length = v[0].isSome.toNat + v[1].isSome.toNat := by
  obtain ⟨⟨l⟩, hl⟩ := v
  match l, hl with
  | [a, b], _ => cases a <;> cases b <;> rfl

end

/-! ## The statement on the capture commands -/

/-- Settles O49: the command in the slot is taken, and each clause is the branch of its meaning that the operands choose; a
queue dropped leaves the slots as `Cp.getElem_dropAcks` says. -/
theorem captureCommandsAnswer : Obligations.CaptureCommandsAnswer := by
  unfold Obligations.CaptureCommandsAnswer
  refine ⟨fun s e hslot => ?sets, fun s e hslot hop => ?reads⟩
  case sets =>
    intro waits refused
    have hcapture (h : e.opcode = 0x60) : exec .captureSet s = .next (captureSet e s) :=
      congrArg _ (withCp_of_dispatched captureSet hslot h rfl)
    have hnode (h : e.opcode = 0x61) : exec .nodeSet s = .next (nodeSet e s) :=
      congrArg _ (withCp_of_dispatched nodeSet hslot h rfl)
    refine ⟨fun hop hbad => ?_, fun hop h0 h1 h2 h3 hp hf => ?applied, fun f hop h0 h1 h2 h3 hp hr hf => ?_,
      fun hop hbad => ?_, fun n hop hn h1 h2 h4 hp => ?_⟩
    · rw [hcapture hop, captureSet_of_bad hbad, answerCp_eq]
    case applied =>
      intro set
      have happly : exec .captureSet s = .next (applyCaptureSet e s) := by
        rw [hcapture hop, captureSet_of_good h0 h1 h2 h3 hp, if_neg (by simp [hf])]
      have hslots : s.cp.dropReception.slots = set.slots := Cp.dropReception_slots s.cp
      refine ⟨fun hon => ?_, fun hoff hq => ?_, fun hoff hq => ?_⟩
      · rw [happly, applyCaptureSet_eq, Cp.applySet_of_on hon, Cp.toWaitIdle_eq, Cp.withSettings, hslots]
      · rw [happly, applyCaptureSet_eq, Cp.applySet_off_of_empty (by omega) hq, Cp.withSettings, hslots]
      · intro freed
        let p : Cp := { s.cp.withSettings e with receiver := .disabled }
        have hp : p.slots = set.slots := hslots
        have hnew : (applyCaptureSet e s).cp.slots = (p.dropAcks s.cp.queue).slots := by
          rw [applyCaptureSet_eq, requestCopy_eq, Cp.applySet_of_off (by omega)]
        have hfreed (i : Fin 2) : (decide (.slot i ∈ s.cp.queue) && (p.slots[i]).any Burst.allResolved) = freed i := by
          rw [hp]
          simp only [freed]
          cases set.slots[i] <;> rfl
        have horder := p.dropAcks_order s.cp.queue
        simp only [hfreed] at horder
        obtain ⟨a, l, hal⟩ := List.exists_cons_of_ne_nil hq
        have hcount : (p.dropAcks s.cp.queue).acksDropped = sat16 (s.cp.acksDropped + s.cp.queue.length) := by
          rw [hal]; exact p.dropAcks_acksDropped a l
        refine ⟨_, happly, ?_, fun i => ?_⟩
        · rw [hnew, applyCaptureSet_eq, Cp.applySet_of_off (by omega), Cp.dropAcks_eq, horder, hcount]
          rfl
        · rw [hnew, Cp.getElem_dropAcks, ← hfreed, hp]
          cases set.slots[i] with
          | none => simp
          | some b => by_cases hin : Ack.slot i ∈ s.cp.queue <;> simp [hin, Burst.ackDropped]
    · rw [hcapture hop, captureSet_of_good h0 h1 h2 h3 hp, if_pos ⟨hr, by simp [hf]⟩]
      rfl
    · rw [hnode hop, nodeSet_of_bad hbad, answerCp_eq]
    · rw [hnode hop, nodeSet_of_good hn h1 h2 h4 hp]
      simp only [Node.set, beq_iff_eq]
      rfl
  case reads =>
    intro answers
    have hread : exec .nodeRead s = .next (nodeRead e s) := congrArg _ (withCp_of_dispatched nodeRead hslot hop rfl)
    refine ⟨fun hbad => ?_, fun hp h2 => ⟨fun n hn => ?node, fun h8 => ?port⟩⟩
    · rw [hread, nodeRead_of_bad hbad, answerCp_eq]
    case node =>
      intro x cleared
      refine ⟨fun h1 => ?_, fun h1 => ?_⟩
      all_goals
        rw [hread, nodeRead_of_node hn (by omega) h2 hp, h1]
        rfl
    case port =>
      refine ⟨fun h1 => ?_, fun h1 => ?_⟩
      · rw [hread, nodeRead_of_port h8 (by omega) h2 hp, h1, ← slots_in_use]
        simp only [Cp.cleared, if_true, ite_self]
        rfl
      · rw [hread, nodeRead_of_port h8 (by omega) h2 hp, h1]
        rfl

end Sys2Proof.Machine
end

section
/-! SUPPORT. The book: which command each part of the J64 holds, by its tag, and what it is for an operation to pass
commands on in it (R162 to R164, R167). -/

namespace Sys2Proof.Machine

/-! ## The book -/

/-- What holds one host command at most: the slot of a unit, or a cursor with a parked fetch. -/
inductive Holder where
  | js | cu | tb | wu | cp
  | cursor (c : Fin 4)
  deriving DecidableEq, Fintype

/-- The tag of the host command that a record comes from. -/
def Origin.hostTag : Origin → Option Byte
  | .host tag => some tag
  | .system _ | .capture _ _ => none

/-- The tag of the command a holder holds. -/
def State.heldTag (s : State) : Holder → Option Byte
  | .js => s.js.slot.map (·.entry.tag)
  | .cu => s.cu.slot.map (·.entry.tag)
  | .tb => s.tb.slot.map (·.entry.tag)
  | .wu => s.wu.slot.map (·.tag)
  | .cp => s.cp.slot.map (·.entry.tag)
  | .cursor c => (s.cu.cursors[c]).parkedTag

/-- The supply state with VMAIN, the retention-lost latch and the HP's OFFLINE. -/
@[ext] structure Power where
  supply : Supply
  vmain : Bool
  latch : Bool
  offline : Bool

/-- The supply, the outstanding tags, and the tags of the commands that wait, are held, are in progress and are
answered. -/
@[ext] structure Book where
  power : Power
  tags : List Byte
  waiting : List Byte
  lane : List (PlaceState × Byte)
  record : Option Byte
  holds : Holder → Option Byte
  answered : List Byte

def State.power (s : State) : Power :=
  { supply := s.pc.supply, vmain := s.pc.vmain, latch := s.pc.latch, offline := s.hp.offline }

/-- The book of a state. -/
def book (s : State) : Book :=
  { power := s.power, tags := s.hp.tags, waiting := s.hp.commands.map (·.tag)
    lane := s.au.hostLane.map (fun p => (p.state, p.entry.tag)), record := s.au.record.bind (·.origin.hostTag)
    holds := s.heldTag, answered := s.hp.responses.map (·.tag) }

/-- The tags that all the holders hold. -/
def heldTags (f : Holder → Option Byte) : Multiset Byte := ∑ h, ((f h).toList : Multiset Byte)

/-- What a holder held and what it holds instead change places. -/
theorem heldTags_update (f : Holder → Option Byte) (h : Holder) (o : Option Byte) :
    heldTags (Function.update f h o) + ((f h).toList : Multiset Byte) = heldTags f + (o.toList : Multiset Byte) := by
  have hf : heldTags f = ((f h).toList : Multiset Byte) + ∑ k ∈ Finset.univ \ {h}, ((f k).toList : Multiset Byte) := by
    rw [heldTags, ← Finset.sum_update_of_mem (Finset.mem_univ h)]
    exact Finset.sum_congr rfl fun k _ => by rw [Function.update_eq_self]
  have hupdate : heldTags (Function.update f h o) =
      (o.toList : Multiset Byte) + ∑ k ∈ Finset.univ \ {h}, ((f k).toList : Multiset Byte) := by
    rw [heldTags, ← Finset.sum_update_of_mem (Finset.mem_univ h)]
    exact Finset.sum_congr rfl fun k _ =>
      Function.apply_update (fun _ (x : Option Byte) => (x.toList : Multiset Byte)) f h o k
  rw [hf, hupdate]
  abel

namespace Book

/-- The tags of all the commands that wait, are held or are answered. -/
def live (b : Book) : Multiset Byte :=
  (b.waiting : Multiset Byte) + (b.lane.map Prod.snd : List Byte) + heldTags b.holds + (b.answered : Multiset Byte)

/-- A host record in progress has a lane place with its tag. -/
def placed (b : Book) : Prop := ∀ x, b.record = some x → (PlaceState.inProgress, x) ∈ b.lane

/-- The sixth law, and that outside RUN and HOLDUP there is no host command. -/
structure lawful (b : Book) : Prop where
  unique : b.power.supply = .run → b.live.Nodup ∧ ∀ x ∈ b.live, x ∈ b.tags
  idle : b.power.supply ≠ .run → b.power.supply ≠ .holdup → b.live = 0
  placed : b.placed

/-- A response with this tag joins the queue, unless the HP is OFFLINE. -/
def post (x : Byte) (b : Book) : Book := if b.power.offline then b else { b with answered := b.answered ++ [x] }

/-- A holder holds the command with this tag, or none. -/
def put (h : Holder) (o : Option Byte) (b : Book) : Book := { b with holds := Function.update b.holds h o }

theorem put_same {b : Book} {h : Holder} {o : Option Byte} (ho : b.holds h = o) : b.put h o = b := by
  subst ho
  simp [put]

@[simp] theorem holds_put_same (b : Book) (h : Holder) (o : Option Byte) : (b.put h o).holds h = o := by simp [put]

theorem holds_put_other (b : Book) {h k : Holder} (o : Option Byte) (hk : k ≠ h) : (b.put h o).holds k = b.holds k := by
  simp [put, hk]

/-- `m` follows from `l` when commands only move from the queue to their holders and on to their answers; those of `taken`
are on their way to one. -/
structure Passes (taken : Multiset Byte) (l m : Book) : Prop where
  power : m.power = l.power
  tags : m.tags = l.tags
  live : m.live + taken ≤ l.live
  placed : l.placed → m.placed

variable {l m n : Book} {taken also : Multiset Byte} {x : Byte}

theorem Passes.refl (l : Book) : l.Passes 0 l := ⟨rfl, rfl, by simp, id⟩

theorem Passes.of_eq (h : m = l) : l.Passes 0 m := h ▸ .refl l

theorem Passes.mono (h : l.Passes taken m) (hle : also ≤ taken) : l.Passes also m :=
  { h with live := (add_le_add_right hle _).trans h.live }

theorem Passes.weaken (h : l.Passes taken m) : l.Passes 0 m := h.mono (Multiset.zero_le _)

/-- One after the other, the second with nothing on its way. -/
theorem Passes.andThen (h : l.Passes taken m) (h' : m.Passes 0 n) : l.Passes taken n where
  power := h'.power.trans h.power
  tags := h'.tags.trans h.tags
  live := (add_le_add_left (by simpa using h'.live) _).trans h.live
  placed := h'.placed ∘ h.placed

/-- A command on its way to an answer is answered. -/
theorem Passes.post (h : l.Passes ({x} + taken) m) : l.Passes taken (m.post x) := by
  unfold Book.post
  split
  case isTrue => exact h.mono (Multiset.le_add_left _ _)
  case isFalse =>
    refine { h with live := le_trans (le_of_eq ?_) h.live }
    simp only [Book.live, ← Multiset.coe_add, Multiset.coe_singleton]
    abel

/-- What a holder held is on its way when another command, or none, takes its place. -/
theorem Passes.put (h : l.Passes taken m) (k : Holder) {o : Option Byte} (ho : taken = also + (o.toList : Multiset Byte)) :
    l.Passes (((m.holds k).toList : Multiset Byte) + also) (m.put k o) := by
  refine { h with live := le_trans (le_of_eq ?_) h.live }
  have hput := heldTags_update m.holds k o
  subst ho
  calc (m.put k o).live + (((m.holds k).toList : Multiset Byte) + also)
      = (m.waiting : Multiset Byte) + (m.lane.map Prod.snd : List Byte) + m.answered + also +
          (heldTags (Function.update m.holds k o) + ((m.holds k).toList : Multiset Byte)) := by
        simp only [Book.live, Book.put]; abel
    _ = m.live + (also + (o.toList : Multiset Byte)) := by rw [hput]; simp only [Book.live]; abel

/-- A holder lets its command go. -/
theorem Passes.free (h : l.Passes 0 m) {k : Holder} (hk : m.holds k = some x) : l.Passes {x} (m.put k none) := by
  have hput := h.put k (o := none) (also := 0) (by simp)
  rwa [hk, add_zero] at hput

/-- A holder holds nothing any more. -/
theorem Passes.drop (h : l.Passes 0 m) (k : Holder) : l.Passes 0 (m.put k none) :=
  (h.put k (o := none) (also := 0) (by simp)).weaken

/-- A holder takes the command on its way. -/
theorem Passes.fill (h : l.Passes {x} m) (k : Holder) : l.Passes 0 (m.put k (some x)) :=
  (h.put k (o := some x) (also := 0) (by simp)).weaken

/-- A holder's command is answered. -/
theorem Passes.answer (h : l.Passes 0 m) {k : Holder} (hk : m.holds k = some x) : l.Passes 0 ((m.put k none).post x) :=
  Passes.post (taken := 0) (by simpa using h.free hk)

theorem Passes.keeps (h : l.Passes taken m) (hl : l.lawful) : m.lawful := by
  have hle : m.live ≤ l.live := (Multiset.le_add_right _ _).trans h.live
  refine ⟨fun hr => ?_, fun hr hh => ?_, h.placed hl.placed⟩
  · obtain ⟨hnodup, hmem⟩ := hl.unique (h.power ▸ hr)
    exact ⟨Multiset.nodup_of_le hle hnodup, fun x hx => h.tags ▸ hmem x (Multiset.mem_of_le hle hx)⟩
  · exact Multiset.le_zero.1 (hl.idle (h.power ▸ hr) (h.power ▸ hh) ▸ hle)

end Book

/-! ## The book speaks of the statement's laws -/

theorem cursors_toList (v : Vector Cursor 4) : v.toList = (fins 4).map (fun c => v[c]) := by
  apply List.ext_getElem <;> simp [fins]

theorem heldTags_eq (f : Holder → Option Byte) : heldTags f =
    ((f .js).toList : Multiset Byte) + (f .cu).toList + (f .tb).toList + (f .wu).toList + (f .cp).toList +
      ((fins 4).filterMap (fun c => f (.cursor c)) : List Byte) := by
  have huniv : (Finset.univ : Finset Holder) =
      {.js, .cu, .tb, .wu, .cp, .cursor 0, .cursor 1, .cursor 2, .cursor 3} := by decide
  have hfins : fins 4 = [0, 1, 2, 3] := rfl
  rw [heldTags, huniv, hfins]
  simp [List.filterMap_eq_flatMap_toList, ← Multiset.coe_add, add_assoc]

theorem coe_liveTags (s : State) : (liveTags s : Multiset Byte) = (book s).live := by
  simp only [liveTags, Book.live, book, heldTags_eq, State.heldTag, ← Multiset.coe_add, cursors_toList,
    List.filterMap_map, List.map_map, Function.comp_def]
  abel

theorem lawful_of_laws {s : State} (hout : outstandingLaw s) (h : tagLaw s) : (book s).lawful := by
  obtain ⟨-, hempty, hidle, -⟩ := hout
  obtain ⟨hunique, hplaced⟩ := h
  refine ⟨fun hr => ?_, fun hr hh => ?_, fun x hx => ?_⟩
  · rw [← coe_liveTags]
    exact hunique hr
  · obtain ⟨hc, hresp⟩ := hempty hr
    have hheld := hidle hr hh
    rw [← coe_liveTags]
    simp only [heldCommands, Nat.add_eq_zero_iff, List.length_eq_zero_iff, Bool.toNat_eq_zero, Option.isSome_eq_false_iff,
      Option.isNone_iff_eq_none, List.filter_eq_nil_iff] at hheld
    obtain ⟨⟨⟨⟨⟨⟨hlane, hjs⟩, hcu⟩, htb⟩, hwu⟩, hcp⟩, hparked⟩ := hheld
    have hnone : s.cu.cursors.toList.filterMap Cursor.parkedTag = [] := by
      simpa [List.filterMap_eq_nil_iff] using hparked
    simp [liveTags, hc, hresp, hlane, hjs, hcu, htb, hwu, hcp, hnone]
  · obtain ⟨r, hr, ho⟩ := Option.bind_eq_some_iff.1 hx
    obtain ⟨p, hp, hstate, htag⟩ := hplaced r x hr (by cases hor : r.origin <;> simp_all [Origin.hostTag])
    exact List.mem_map.2 ⟨p, hp, by rw [hstate, htag]⟩

theorem tagLaw_of_lawful {s : State} (h : (book s).lawful) : tagLaw s := by
  refine ⟨fun hr => ?_, fun r tag hr ho => ?_⟩
  · have hunique := h.unique hr
    rw [← coe_liveTags] at hunique
    exact hunique
  · obtain ⟨p, hp, heq⟩ := List.mem_map.1 (h.placed tag (by simp [book, hr, ho, Origin.hostTag]))
    obtain ⟨hstate, htag⟩ := Prod.mk.inj heq
    exact ⟨p, hp, hstate, htag⟩

end Sys2Proof.Machine
end

section
/-! SUPPORT. What the shared operations do to the book: most leave it as it is, and an answer takes its command from the
holder. -/

namespace Sys2Proof.Machine

section

variable (s : State)

/-! ## Events, responses, system record requests -/

@[simp] theorem book_latch (e : Event) : book (latch e s) = book s := rfl

@[simp] theorem book_latchIf (b : Bool) (e : Event) : book (latchIf b e s) = book s := by
  unfold latchIf; split <;> rfl

@[simp] theorem book_post (r : Response) : book (post r s) = (book s).post r.tag := by
  cases h : s.hp.offline <;> simp [book, State.power, post, Hp.post, Book.post, h] <;> rfl

@[simp] theorem book_answer (e : Entry) (r : Result) (fields : List Byte) :
    book (answer e r fields s) = (book s).post e.tag := book_post s _

@[simp] theorem book_loseSystem : book (loseSystem s) = book s := rfl

@[simp] theorem book_requestSystem (q : SysRequest) : book (requestSystem q s) = book s := by
  unfold requestSystem
  (repeat' split) <;> rfl

/-! ## The slots of the units -/

theorem book_onJs (f : Js → Js) : book (s.onJs f) = (book s).put .js ((f s.js).slot.map (·.entry.tag)) :=
  Book.ext rfl rfl rfl rfl rfl (funext fun h => by cases h <;> rfl) rfl

theorem book_onTb (f : Tb → Tb) : book (s.onTb f) = (book s).put .tb ((f s.tb).slot.map (·.entry.tag)) :=
  Book.ext rfl rfl rfl rfl rfl (funext fun h => by cases h <;> rfl) rfl

theorem book_onWu (f : Wu → Wu) : book (s.onWu f) = (book s).put .wu ((f s.wu).slot.map (·.tag)) :=
  Book.ext rfl rfl rfl rfl rfl (funext fun h => by cases h <;> rfl) rfl

theorem book_onCp (f : Cp → Cp) : book (s.onCp f) = (book s).put .cp ((f s.cp).slot.map (·.entry.tag)) :=
  Book.ext rfl rfl rfl rfl rfl (funext fun h => by cases h <;> rfl) rfl

theorem book_onJs_same {f : Js → Js} (h : (f s.js).slot = s.js.slot) : book (s.onJs f) = book s := by
  rw [book_onJs, h]
  exact Book.put_same rfl

theorem book_onTb_same {f : Tb → Tb} (h : (f s.tb).slot = s.tb.slot) : book (s.onTb f) = book s := by
  rw [book_onTb, h]
  exact Book.put_same rfl

theorem book_onWu_same {f : Wu → Wu} (h : (f s.wu).slot = s.wu.slot) : book (s.onWu f) = book s := by
  rw [book_onWu, h]
  exact Book.put_same rfl

theorem book_onCp_same {f : Cp → Cp} (h : (f s.cp).slot = s.cp.slot) : book (s.onCp f) = book s := by
  rw [book_onCp, h]
  exact Book.put_same rfl

/-- The CU's slot, with the cursors as they are. -/
theorem book_setCuSlot (x : Option CuSlot) :
    book (s.onCu (fun u => { u with slot := x })) = (book s).put .cu (x.map (·.entry.tag)) :=
  Book.ext rfl rfl rfl rfl rfl (funext fun h => by cases h <;> rfl) rfl

/-- One cursor: what counts is the fetch parked on it. -/
theorem book_onCursor (c : Fin 4) (f : Cursor → Cursor) :
    book (onCursor c f s) = (book s).put (.cursor c) (f s.cu.cursors[c]).parkedTag := by
  refine Book.ext rfl rfl rfl rfl rfl (funext fun h => ?_) rfl
  by_cases hc : h = .cursor c
  · subst hc
    simp [book, State.heldTag, onCursor, Cu.onCursor, vmod]
  · rw [Book.holds_put_other _ _ hc]
    cases h with
    | cursor d =>
      have hd : c.val ≠ d.val := fun hv => hc (congrArg Holder.cursor (Fin.ext hv.symm))
      simp [book, State.heldTag, onCursor, Cu.onCursor, vmod, hd]
    | js | cu | tb | wu | cp => rfl

theorem book_onCursor_same (c : Fin 4) {f : Cursor → Cursor} (h : ∀ x : Cursor, (f x).parkedTag = x.parkedTag) :
    book (onCursor c f s) = book s := by
  rw [book_onCursor, h]
  exact Book.put_same rfl

/-- All cursors updated, none of them parked or freed by it. -/
theorem book_mapCursors {f : Cursor → Cursor} (h : ∀ x : Cursor, (f x).parkedTag = x.parkedTag) :
    book (s.onCu (fun u => { u with cursors := u.cursors.map f })) = book s :=
  Book.ext rfl rfl rfl rfl rfl
    (funext fun k => by cases k <;> simp [book, State.heldTag, h]) rfl

/-! ## Journal Store -/

@[simp] theorem book_requestCopy : book (requestCopy s) = book s := by
  refine Book.ext ?_ ?_ ?_ ?_ ?_ (funext fun h => ?_) ?_
  case refine_6 => cases h <;> simp [book, State.heldTag]
  all_goals simp [book, State.power]

/-- A reclamation tells the scan in the CU's slot, whose command stays. -/
theorem book_reclaim : book (reclaim s) = book s := by
  have hleave : (s.cu.slot.map (CuSlot.leave s.js.head)).map (·.entry.tag) = s.cu.slot.map (·.entry.tag) := by
    cases s.cu.slot <;> rfl
  refine Book.ext ?_ ?_ ?_ ?_ ?_ (funext fun h => ?_) ?_
  case refine_6 =>
    obtain ⟨hjs, -, hcursors⟩ := reclaim_slots s
    cases h with
    | cu => exact (congrArg (fun u : Cu => u.slot.map (·.entry.tag)) (reclaim_cu s)).trans hleave
    | js | tb | wu | cp | cursor => simp [book, State.heldTag, hjs, hcursors]
  all_goals simp [book, State.power]

@[simp] theorem book_prepare : book (prepare s) = book s := by
  have hclear : book (startClearing s.js.next s) = book s := book_onJs_same s rfl
  unfold prepare
  (repeat' split)
  · exact (book_onJs_same _ rfl).trans hclear
  · exact book_onJs_same s rfl
  · exact book_onJs_same s rfl
  · exact book_onJs_same s rfl
  · exact book_onJs_same s rfl
  · exact (book_onJs_same _ rfl).trans (book_reclaim s)
  · rfl

@[simp] theorem book_takeFloor (f : Option Nat) : book (takeFloor f s) = book s := by
  have hfloor : book (s.onJs (fun j => { j with holdFloor := f })) = book s := book_onJs_same s rfl
  unfold takeFloor
  dsimp only
  split
  · exact (book_prepare _).trans hfloor
  · exact hfloor

@[simp] theorem book_reportFloor (old : Option Nat) : book (reportFloor old s) = book s := by
  unfold reportFloor
  dsimp only
  (repeat' split)
  · rfl
  · exact (book_takeFloor _ _).trans (book_onJs_same s rfl)
  · exact book_onJs_same s rfl

@[simp] theorem book_withFloor (f : State → State) : book (withFloor f s) = book (f s) := book_reportFloor _ _

theorem book_setJsSlot (x : Option JsSlot) : book (setJsSlot x s) = (book s).put .js (x.map (·.entry.tag)) :=
  book_onJs s _

theorem book_answerJs (e : Entry) (r : Result) (fields : List Byte) :
    book (answerJs e r fields s) = ((book s).put .js none).post e.tag := by
  rw [answerJs, book_answer, book_setJsSlot]
  rfl

theorem book_answerTb (e : Entry) (r : Result) (fields : List Byte) :
    book (answerTb e r fields s) = ((book s).put .tb none).post e.tag := by
  rw [answerTb, book_answer, book_onTb]
  rfl

theorem book_answerWu (e : Entry) (r : Result) (fields : List Byte) :
    book (answerWu e r fields s) = ((book s).put .wu none).post e.tag := by
  rw [answerWu, book_answer, book_onWu]
  rfl

theorem book_answerCp (e : Entry) (r : Result) (fields : List Byte) :
    book (answerCp e r fields s) = ((book s).put .cp none).post e.tag := by
  rw [answerCp, book_answer, book_onCp]
  rfl

theorem book_answerCu (e : Entry) (r : Result) (lost : Bool) (fields : List Byte) :
    book (answerCu e r lost fields s) = ((book s).put .cu none).post e.tag := by
  rw [answerCu, book_post, book_setCuSlot]
  rfl

/-! ## Cursor Unit -/

@[simp] theorem book_reportLoss (c : Fin 4) (n : Nat) : book (reportLoss c n s) = book s := by
  unfold reportLoss
  split
  · rfl
  · exact book_onCursor_same s c fun _ => rfl

@[simp] theorem book_lossCheck (c : Fin 4) : book (lossCheck c s) = book s := by
  unfold lossCheck
  rw [book_reportLoss]
  exact book_onCursor_same s c fun x => by split <;> rfl

@[simp] theorem book_setWindow (c : Fin 4) (image : List Byte) : book (setWindow c image s) = book s := by
  unfold setWindow
  split <;> exact book_onCursor_same s c fun _ => rfl

@[simp] theorem book_countDelivered (c : Fin 4) : book (countDelivered c s) = book s :=
  book_onCursor_same s c fun _ => rfl

@[simp] theorem book_markSeen (c : Fin 4) (stop : ReclaimNotice → Bool) : book (markSeen c stop s) = book s := rfl

theorem book_setScan {e : Entry} (sc : Scan) (h : (book s).holds .cu = some e.tag) : book (setScan e sc s) = book s :=
  (book_setCuSlot s _).trans (Book.put_same h)

end

end Sys2Proof.Machine
end

section
/-! SUPPORT. The CU's commands and happenings pass on the tags of what they answer or park (R110 to R117, R127). -/

namespace Sys2Proof.Machine

section

variable {s : State} {e : Entry} (h : (book s).holds .cu = some e.tag)

include h

/-! ## The ends of a scan -/

theorem answerCu_passes (r : Result) (lost : Bool) (fields : List Byte) :
    (book s).Passes 0 (book (answerCu e r lost fields s)) := by
  rw [book_answerCu]
  exact (Book.Passes.refl _).answer h

theorem rejectCu_passes (r : Result) : (book s).Passes 0 (book (rejectCu e r s)) := answerCu_passes h ..

theorem endScan_passes (sc : Scan) (pos : Nat) (r : Result) (limited : Bool) (fields : Nat → List Byte) :
    (book s).Passes 0 (book (endScan e sc pos r limited fields s)) := by
  unfold endScan
  rw [book_withFloor]
  dsimp only
  rw [book_post, book_setCuSlot, book_onCursor, book_reportLoss]
  exact ((Book.Passes.refl _).drop _).answer (by simpa [Book.holds_put_other] using h)

/-- A park takes the fetch from the slot to the cursor. -/
theorem park_passes (sc : Scan) (tail : Nat) : (book s).Passes 0 (book (park e sc tail s)) := by
  let parked := onCursor sc.cursor (fun x =>
    { x with state := .parked, position := tail, fetchTag := some e.tag, fetchLost := sc.skipped != 0,
             beatsLeft := if x.timeout = 0 then none else some x.timeout })
  have hfree : book (s.onCu (fun u => { u with slot := none })) = (book s).put .cu none := book_setCuSlot s none
  have hpark : book (parked (s.onCu (fun u => { u with slot := none }))) =
      ((book s).put .cu none).put (.cursor sc.cursor) (some e.tag) := by
    rw [← hfree]
    exact book_onCursor ..
  unfold park
  rw [book_withFloor]
  exact hpark ▸ ((Book.Passes.refl _).free h).fill _

theorem endCount_passes (sc : Scan) (limited : Bool) : (book s).Passes 0 (book (endCount e sc limited s)) :=
  endScan_passes h ..

theorem endSeek_passes (sc : Scan) (pos : Nat) : (book s).Passes 0 (book (endSeek e sc pos s)) := endScan_passes h ..

theorem atTail_passes (sc : Scan) : (book s).Passes 0 (book (atTail e sc s)) := by
  unfold atTail
  dsimp only
  split
  · split
    · exact park_passes h ..
    · exact endScan_passes h ..
  · exact endCount_passes h ..
  · exact endSeek_passes h ..

theorem atHead_passes (sc : Scan) (before : Nat) : (book s).Passes 0 (book (atHead e sc before s)) := by
  unfold atHead
  split
  · exact endScan_passes h ..
  · exact endCount_passes h ..
  · exact endSeek_passes h ..

theorem setScan_passes (sc : Scan) : (book s).Passes 0 (book (setScan e sc s)) := .of_eq (book_setScan s sc h)

/-! ## The steps of a scan -/

theorem examine_passes (sc : Scan) (u : Nat) (next : Onward) : (book s).Passes 0 (book (examine e sc u next s)) := by
  unfold examine
  dsimp only
  split
  · split
    · have hfound := endScan_passes (e := e)
        (s := countDelivered sc.cursor (setWindow sc.cursor (windowImage s.mem sc.seg u) s))
        (by simpa using h) sc next.pos .found false
      simp only [book_countDelivered, book_setWindow] at hfound
      exact hfound _
    · split
      · exact endScan_passes h ..
      · exact setScan_passes h ..
  · split
    · exact endCount_passes h ..
    · exact setScan_passes h ..
  · split_ifs
    · exact endSeek_passes h ..
    · exact setScan_passes h ..
    · exact endSeek_passes h ..
    · exact setScan_passes h ..

theorem readForward_passes (sc : Scan) (u : Nat) : (book s).Passes 0 (book (readForward e sc u s)) := by
  unfold readForward
  dsimp only
  split
  · split
    · exact examine_passes h ..
    · exact setScan_passes h ..
  all_goals exact setScan_passes h ..

theorem stepForward_passes (sc : Scan) : (book s).Passes 0 (book (stepForward e sc s)) := by
  unfold stepForward
  (repeat' split)
  · exact .refl _
  · exact setScan_passes h ..
  · exact setScan_passes h ..
  · exact .refl _
  · exact readForward_passes h ..

theorem leaveBackward_passes (sc : Scan) : (book s).Passes 0 (book (leaveBackward e sc s)) := by
  unfold leaveBackward
  split
  · exact atHead_passes h ..
  · exact setScan_passes h ..

theorem stepBackward_passes (sc : Scan) : (book s).Passes 0 (book (stepBackward e sc s)) := by
  unfold stepBackward
  dsimp only
  (repeat' split)
  · exact leaveBackward_passes h ..
  · exact setScan_passes h ..
  · exact leaveBackward_passes h ..
  · exact examine_passes h ..
  · exact setScan_passes h ..

theorem tailTest_passes (sc : Scan) : (book s).Passes 0 (book (tailTest e sc s)) := by
  unfold tailTest
  (repeat' split)
  · exact .refl _
  · exact atTail_passes h ..
  · exact setScan_passes h ..
  · exact atTail_passes h ..
  · exact readForward_passes h ..

theorem overtakeForward_passes (sc : Scan) (g : Seg) (n : Nat) :
    (book s).Passes 0 (book (overtakeForward e sc g n s)) := by
  unfold overtakeForward
  dsimp only
  exact .of_eq ((book_setScan _ _ (by simpa using h)).trans (book_reportLoss ..))

theorem afterReclaims_passes (sc : Scan) (l : Bool × Nat) (before : Nat) :
    (book s).Passes 0 (book (afterReclaims e sc l before s)) := by
  unfold afterReclaims
  dsimp only
  split
  · exact atHead_passes h ..
  · exact setScan_passes h ..

theorem findsGone_passes (sc : Scan) : (book s).Passes 0 (book (findsGone e sc s)) := by
  unfold findsGone
  dsimp only
  (repeat' split)
  · exact atHead_passes (s := markSeen ..) h ..
  · exact afterReclaims_passes (s := markSeen ..) h ..
  · exact afterReclaims_passes (s := markSeen ..) h ..
  · exact overtakeForward_passes (s := markSeen ..) h ..

theorem scanReclaimed_passes (n : ReclaimNotice) (sc : Scan) : (book s).Passes 0 (book (scanReclaimed n e sc s)) := by
  unfold scanReclaimed
  dsimp only
  split
  · split
    · split
      · exact atHead_passes h ..
      · exact .refl _
    all_goals exact afterReclaims_passes h ..
  · split
    · exact overtakeForward_passes h ..
    · exact .refl _

/-! ## The commands (R101, R106 to R112, R116, R117, R126) -/

/-- The command in the slot is answered after an operation that leaves it there. -/
theorem thenAnswerCu {u : State} (hu : (book s).Passes 0 (book u)) (hcu : (book u).holds .cu = (book s).holds .cu)
    (r : Result) (lost : Bool) (fields : List Byte) : (book s).Passes 0 (book (answerCu e r lost fields u)) :=
  hu.andThen (answerCu_passes (hcu.trans h) r lost fields)

theorem openCursor_passes : (book s).Passes 0 (book (openCursor e s)) := by
  unfold openCursor
  (repeat' split)
  · exact rejectCu_passes h _
  · exact rejectCu_passes h _
  next c _ _ d _ =>
    let opened := withFloor (fun s => setWindow c [] (onCursor c (fun x =>
      x.opened e d (max (startPosition ((e.param 1).testBit 0) (rd8 e.payload 22) (rd32 e.payload 23) s) (headSeq s))) s)) s
    have hopened : book opened = (book s).put (.cursor c) none := by
      simp only [opened, book_withFloor, book_setWindow, book_onCursor]
      rfl
    refine thenAnswerCu h (u := reportLoss c _ opened) ?_ ?_ _ _ _ <;> rw [book_reportLoss, hopened]
    · exact (Book.Passes.refl _).drop _
    · exact Book.holds_put_other _ _ (by simp)

theorem seek_passes (c : Fin 4) : (book s).Passes 0 (book (seek c e s)) := by
  unfold seek
  split
  · exact rejectCu_passes h _
  · dsimp only
    refine thenAnswerCu h (u := reportLoss c _ _) (.of_eq ?hbook) (congrFun (congrArg Book.holds ?hbook) _) _ _ _
    rw [book_reportLoss, book_withFloor, book_onCursor_same _ _ (by intro x; rfl), book_lossCheck]

/-- A cursor that begins a scan is parked no more. -/
theorem startScan_passes (sc : Scan) : (book s).Passes 0 (book (startScan e sc s)) ∧
    (book (startScan e sc s)).holds .cu = some e.tag := by
  have hscanning : book (onCursor sc.cursor (fun x => { x with state := .scanning }) s) =
      (book s).put (.cursor sc.cursor) none := book_onCursor ..
  have hcu : ((book s).put (.cursor sc.cursor) none).holds .cu = some e.tag := by
    rw [Book.holds_put_other _ _ (by simp), h]
  unfold startScan
  rw [book_setScan _ _ (by rw [hscanning, hcu]), hscanning]
  exact ⟨(Book.Passes.refl _).drop _, hcu⟩

theorem seekTime_passes (c : Fin 4) : (book s).Passes 0 (book (seekTime c e s)) := by
  unfold seekTime
  split
  · exact rejectCu_passes h _
  · have hstart := fun sc => (startScan_passes (e := e) (s := lossCheck c s) (by simpa using h) sc).1
    rw [book_lossCheck] at hstart
    exact hstart _

theorem beginScan_passes (kind : ScanKind) (c : Fin 4) : (book s).Passes 0 (book (beginScan kind c e s)) := by
  unfold beginScan
  split
  · exact rejectCu_passes h _
  · have hstart := startScan_passes (e := e) (s := lossCheck c s) (by simpa using h)
    rw [book_lossCheck] at hstart
    dsimp only
    (repeat' split)
    · exact (hstart _).1.andThen (atHead_passes (hstart _).2 ..)
    · exact (hstart _).1
    · exact (hstart _).1.andThen (atTail_passes (hstart _).2 ..)
    · exact (hstart _).1

omit h in
/-- The answer of a parked fetch, with what ends its park. -/
theorem answerParked_passes (r : Result) (c : Fin 4) (f : Cursor → Cursor) (hf : ∀ x, (f x).parkedTag = none) :
    (book s).Passes 0 (book (onCursor c f (answerParked r c s))) := by
  have hunparked : book (onCursor c f s) = (book s).put (.cursor c) none := by rw [book_onCursor, hf]
  unfold answerParked
  split
  case h_1 tag htag =>
    change (book s).Passes 0 (book (post (Response.bare tag r _) (onCursor c f s)))
    rw [book_post, hunparked]
    exact (Book.Passes.refl _).answer htag
  case h_2 => exact hunparked ▸ (Book.Passes.refl _).drop _

theorem cancel_passes (c : Fin 4) : (book s).Passes 0 (book (cancel c e s)) := by
  unfold cancel
  split
  · exact rejectCu_passes h _
  · exact thenAnswerCu h (answerParked_passes .cancelled c _ Cursor.parkedTag_unparked)
      (by simp [book, State.heldTag, onCursor, Cu.onCursor]) _ _ _

theorem close_passes (c : Fin 4) : (book s).Passes 0 (book (close c e s)) := by
  unfold close
  split
  · exact rejectCu_passes h _
  · refine thenAnswerCu h ?_ ?_ _ _ _ <;> rw [book_withFloor]
    · exact answerParked_passes .closed c _ fun _ => rfl
    · simp [book, State.heldTag, onCursor, Cu.onCursor]

theorem cursorStatus_passes (c : Fin 4) : (book s).Passes 0 (book (cursorStatus c e s)) := by
  unfold cursorStatus
  split
  · exact rejectCu_passes h _
  · exact answerCu_passes h ..

theorem withCursor_passes (moves : Bool) {f : Fin 4 → Entry → State → State}
    (hf : ∀ c, (book s).Passes 0 (book (f c e s))) : (book s).Passes 0 (book (withCursor moves f e s)) :=
  withCursor_keeps (fun t => (book s).Passes 0 (book t)) moves e (rejectCu_passes h) hf

end

section

variable (s : State)

theorem withCu_passes (o : Nat) {f : Entry → State → State}
    (hf : ∀ e, (book s).holds .cu = some e.tag → (book s).Passes 0 (book (f e s))) :
    (book s).Passes 0 (book (withCu o f s)) := by
  unfold withCu
  (repeat' split)
  case h_1 e hslot _ => exact hf e (by simp [book, State.heldTag, hslot])
  all_goals exact .refl _

theorem withScan_passes {f : Entry → Scan → State → State}
    (hf : ∀ e sc, (book s).holds .cu = some e.tag → (book s).Passes 0 (book (f e sc s))) :
    (book s).Passes 0 (book (withScan f s)) := by
  unfold withScan
  split
  case h_1 e sc hslot =>
    have hcu : (book s).holds .cu = some e.tag := by simp [book, State.heldTag, hslot]
    split
    · exact findsGone_passes hcu sc
    · exact hf e sc hcu
  case h_2 => exact .refl _

/-! ## FORMAT closes the cursors (R127) -/

theorem closeScanning_passes : (book s).Passes 0 (book (closeScanning s)) := by
  unfold closeScanning
  split
  case h_1 e sc hslot =>
    have hcu : (book s).holds .cu = some e.tag := by simp [book, State.heldTag, hslot]
    have hfreed : book (s.onCu (fun u =>
        { u.onCursor sc.cursor (fun c => { c with lost := sat32 (c.lost + sc.owed) }) with slot := none })) =
        (book s).put .cu none :=
      (book_setCuSlot (onCursor sc.cursor (fun c => { c with lost := sat32 (c.lost + sc.owed) }) s) none).trans
        (congrArg (Book.put .cu none) (book_onCursor_same s _ fun _ => rfl))
    rw [book_post, book_latchIf, hfreed]
    exact (Book.Passes.refl _).answer hcu
  case h_2 => exact .refl _

theorem Cursor.parkedAnswer_tags (r : Result) (x : Cursor) :
    (x.parkedAnswer r).map (·.tag) = x.parkedTag.toList := by
  unfold Cursor.parkedAnswer Cursor.parkedTag
  split
  · cases x.fetchTag <;> rfl
  · rfl

/-- Responses posted one after another answer the commands with their tags. -/
theorem postAll_passes {l : Book} {taken : Multiset Byte} (rs : List Response) (t : State)
    (h : l.Passes ((rs.map (·.tag) : List Byte) + taken) (book t)) : l.Passes taken (book (t.onHp (Hp.postAll rs))) := by
  induction rs generalizing t with
  | nil =>
    rw [List.map_nil, Multiset.coe_nil, zero_add] at h
    exact h
  | cons r rs ih =>
    refine ih (post r t) ?_
    rw [book_post]
    exact Book.Passes.post (by simpa [← Multiset.cons_coe, ← Multiset.singleton_add, add_assoc] using h)

theorem closeCursors_passes : (book s).Passes 0 (book (closeCursors s)) := by
  let t := closeScanning s
  let u := t.onCu (fun u => { u with cursors := u.cursors.map Cursor.closedByFormat, noOpen := true })
  have hclosed (c : Fin 4) : (book u).holds (.cursor c) = none := by
    simp [u, book, State.heldTag, Cursor.closedByFormat, Cursor.parkedTag]
  have hanswers : ((fins 4).flatMap (fun c => (t.cu.cursors[c]).parkedAnswer .closed)).map (·.tag) =
      (fins 4).filterMap (fun c => (book t).holds (.cursor c)) := by
    simp only [List.map_flatMap, Cursor.parkedAnswer_tags, List.filterMap_eq_flatMap_toList]
    rfl
  have hfreed : (book t).Passes
      ((((fins 4).flatMap (fun c => (t.cu.cursors[c]).parkedAnswer .closed)).map (·.tag) : List Byte) + 0) (book u) := by
    have hheld : heldTags (book u).holds + ((fins 4).filterMap (fun c => (book t).holds (.cursor c)) : List Byte) =
        heldTags (book t).holds := by
      simp only [heldTags_eq, hclosed, List.filterMap_none, Multiset.coe_nil, add_zero]
      rfl
    refine ⟨rfl, rfl, le_of_eq ?_, id⟩
    rw [hanswers, add_zero, Book.live, add_right_comm, add_assoc _ (heldTags _), hheld]
    rfl
  have hposted := (closeScanning_passes s).andThen (postAll_passes _ u hfreed)
  rw [closeCursors_eq rfl]
  exact hposted

end

/-! ## Commit notices, reclaim notices, the follow timeout (R114, R115, R121 to R123) -/

section

variable (s : State)

theorem Cursor.parkedTag_of_parked {x : Cursor} (h : x.state = .parked) : x.parkedTag = x.fetchTag := if_pos h

theorem parkedNotice_passes (n : Notice) (c : Fin 4) : (book s).Passes 0 (book (parkedNotice n c s)) := by
  unfold parkedNotice
  dsimp only
  split
  case isFalse => exact .refl _
  case isTrue hparked =>
    split
    case isFalse => exact .of_eq (book_onCursor_same s c (by intro x; rfl))
    case isTrue =>
      have hunparked : book (onCursor c (fun x => { x.unparked with position := n.seq + 1 })
          (countDelivered c (setWindow c (windowImage s.mem n.seg n.unit) s))) = (book s).put (.cursor c) none := by
        rw [book_onCursor, Cursor.parkedTag_unparked_at, book_countDelivered, book_setWindow]
      split
      case h_1 tag hfetch =>
        rw [book_post, hunparked]
        exact (Book.Passes.refl _).answer ((Cursor.parkedTag_of_parked hparked.1).trans hfetch)
      case h_2 => exact hunparked ▸ (Book.Passes.refl _).drop _

theorem parkedNotices_pass (n : Notice) (l : List (Fin 4)) :
    (book s).Passes 0 (book (l.foldl (fun s c => parkedNotice n c s) s)) := by
  induction l generalizing s with
  | nil => exact .refl _
  | cons c l ih => exact (parkedNotice_passes s n c).andThen (ih _)

theorem exec_cuCommitNotice_passes {t : State} (h : exec .cuCommitNotice s = .next t) :
    (book s).Passes 0 (book t) := by
  obtain rfl := Host.Outcome.next.inj h
  split
  case h_1 => exact .refl _
  case h_2 n rest _ =>
    dsimp only
    split
    · exact .refl _
    · rw [book_withFloor]
      exact parkedNotices_pass (s.onCu (fun u => { u with notices := rest })) n _

theorem exec_reclaimNotice_passes {t : State} (h : exec .reclaimNotice s = .next t) :
    (book s).Passes 0 (book t) := by
  obtain rfl := Host.Outcome.next.inj h
  split
  case h_1 => exact .refl _
  case h_2 n rest _ =>
    let ready := s.onCu (fun u =>
      { u with
        cursors := Vector.ofFn (fun c => if n.seenBy.contains c then u.cursors[c] else (u.cursors[c]).takeReclaim n)
        reclaims := rest })
    have hready : book ready = book s := by
      refine Book.ext rfl rfl rfl rfl rfl (funext fun k => ?_) rfl
      cases k with
      | cursor c =>
        simp only [book, State.heldTag, ready, State.onCu_cu, Fin.getElem_fin, Vector.getElem_ofFn, Fin.eta]
        split
        · rfl
        · exact Cursor.parkedTag_takeReclaim n _
      | js | cu | tb | wu | cp => rfl
    dsimp only
    split
    · exact .refl _
    · split
      case h_1 e sc hslot =>
        split
        · exact .of_eq hready
        · have hcu : (book ready).holds .cu = some e.tag := congrArg (Option.map (fun x : CuSlot => x.entry.tag)) hslot
          exact (Book.Passes.of_eq hready).andThen (scanReclaimed_passes hcu n sc)
      case h_2 => exact .of_eq hready

theorem exec_followTimeout_passes {c : Fin 4} {t : State} (h : exec (.followTimeout c) s = .next t) :
    (book s).Passes 0 (book t) := by
  have hunparked : book (onCursor c Cursor.unparked s) = (book s).put (.cursor c) none := by
    rw [book_onCursor, Cursor.parkedTag_unparked]
  obtain rfl := Host.Outcome.next.inj h
  dsimp only
  split
  case isTrue hparked =>
    split
    case h_1 tag htag =>
      rw [book_post, hunparked]
      exact (Book.Passes.refl _).answer ((Cursor.parkedTag_of_parked hparked.1).trans htag)
    case h_2 => exact hunparked ▸ (Book.Passes.refl _).drop _
  case isFalse => exact .refl _

end

end Sys2Proof.Machine
end

section
/-! SUPPORT. The commands and happenings of the TB, the WU, the JS and the CP pass on the tags of what they answer. -/

namespace Sys2Proof.Machine

section

variable (s : State)

/-! ## Time Base (R67 to R77) -/

theorem withTb_passes (o : Nat) {f : Entry → State → State}
    (hf : ∀ e, (book s).holds .tb = some e.tag → (book s).Passes 0 (book (f e s))) :
    (book s).Passes 0 (book (withTb o f s)) := by
  unfold withTb
  (repeat' split)
  case h_1 e hslot _ => exact hf e (by simp [book, State.heldTag, hslot])
  all_goals exact .refl _

theorem answerTb_passes {e : Entry} (r : Result) (fields : List Byte) (h : (book s).holds .tb = some e.tag) :
    (book s).Passes 0 (book (answerTb e r fields s)) := by
  rw [book_answerTb]
  exact (Book.Passes.refl _).answer h

theorem readTime_passes {e : Entry} (h : (book s).holds .tb = some e.tag) : (book s).Passes 0 (book (readTime e s)) := by
  unfold readTime
  split <;> exact answerTb_passes s _ _ h

theorem setTime_passes {e : Entry} (h : (book s).holds .tb = some e.tag) : (book s).Passes 0 (book (setTime e s)) := by
  unfold setTime
  split
  · exact answerTb_passes s _ _ h
  · exact .of_eq ((book_onTb s _).trans (Book.put_same h))

theorem adjustTime_passes {e : Entry} (h : (book s).holds .tb = some e.tag) :
    (book s).Passes 0 (book (adjustTime e s)) := by
  unfold adjustTime
  dsimp only
  split
  · exact answerTb_passes s _ _ h
  · have hadjusted (v : Int) : book (s.onTb (fun t => { t with adjustment := v })) = book s := book_onTb_same s rfl
    exact (Book.Passes.of_eq (hadjusted _)).andThen (answerTb_passes _ _ _ (hadjusted _ ▸ h))

/-- A second boundary that takes a staged value answers the SET_TIME that staged it (R72). -/
theorem announceSet_passes : (book s).Passes 0 (book (announceSet s.tb (s.onTb Tb.boundary))) := by
  have hslot := book_onTb s Tb.boundary
  rw [Tb.boundary_slot] at hslot
  unfold announceSet
  split
  case h_1 v e o hstaged hset =>
    rw [hstaged] at hslot
    rw [book_answer, book_latch, book_requestSystem, hslot]
    exact (Book.Passes.refl _).answer (k := .tb) (by simp [book, State.heldTag, hset])
  case h_2 =>
    rw [hslot]
    split
    · exact (Book.Passes.refl _).drop _
    · exact .of_eq (Book.put_same rfl)

theorem boundaryTick_passes : (book s).Passes 0 (book (boundaryTick s)) := by
  unfold boundaryTick
  dsimp only
  split
  · rw [book_onWu_same _ rfl]
    exact announceSet_passes s
  · exact announceSet_passes s

theorem advanceTime_passes : (book s).Passes 0 (book (advanceTime s)) := by
  unfold advanceTime
  split
  · exact boundaryTick_passes s
  · refine .of_eq (book_onTb_same s ?_)
    split <;> simp only [Tb.slot_decide, Tb.slot_plainTick]

theorem book_beatEvent : book (beatEvent s) = book s :=
  (book_onCp_same _ rfl).trans
    (book_mapCursors s (f := fun c => { c with beatsLeft := oneBeat c.beatsLeft }) fun _ => rfl)

theorem book_countBeat : book (countBeat s) = book s := by
  have hphase (n : Nat) : book (s.onTb (fun t => { t with beatPhase := n })) = book s := book_onTb_same s rfl
  unfold countBeat
  dsimp only
  (repeat' split)
  · exact hphase _
  · exact (book_beatEvent _).trans (hphase 0)
  · exact hphase 0

theorem oscillatorTick_passes : (book s).Passes 0 (book (oscillatorTick s)) := by
  unfold oscillatorTick
  split
  · exact .refl _
  · rw [book_countBeat]
    exact advanceTime_passes s

/-! ## Watch Unit (R89 to R96) -/

theorem withWu_passes (o : Nat) {f : Entry → State → State}
    (hf : ∀ e, (book s).holds .wu = some e.tag → (book s).Passes 0 (book (f e s))) :
    (book s).Passes 0 (book (withWu o f s)) := by
  unfold withWu
  (repeat' split)
  case h_1 e hslot _ => exact hf e (by simp [book, State.heldTag, hslot])
  all_goals exact .refl _

/-- A command is answered after a change of the watches. -/
theorem answerWu_passes {e : Entry} (r : Result) (fields : List Byte) (h : (book s).holds .wu = some e.tag) (f : Wu → Wu)
    (hf : (f s.wu).slot = s.wu.slot) : (book s).Passes 0 (book (answerWu e r fields (s.onWu f))) := by
  rw [book_answerWu, book_onWu_same s hf]
  exact (Book.Passes.refl _).answer h

theorem watchSet_passes {e : Entry} (h : (book s).holds .wu = some e.tag) : (book s).Passes 0 (book (watchSet e s)) := by
  unfold watchSet
  (repeat' split)
  case h_2 => exact answerWu_passes s _ _ h _ rfl
  all_goals exact answerWu_passes s _ _ h id rfl

theorem watchRead_passes {e : Entry} (h : (book s).holds .wu = some e.tag) :
    (book s).Passes 0 (book (watchRead e s)) := by
  unfold watchRead
  split
  · exact answerWu_passes s _ _ h id rfl
  · dsimp only
    split
    · exact answerWu_passes s _ _ h id rfl
    · split
      · exact answerWu_passes s _ _ h _ rfl
      · exact answerWu_passes s _ _ h id rfl

theorem watchOff_passes {e : Entry} (h : (book s).holds .wu = some e.tag) : (book s).Passes 0 (book (watchOff e s)) := by
  unfold watchOff
  (repeat' split)
  case isFalse => exact answerWu_passes s _ _ h _ rfl
  all_goals exact answerWu_passes s _ _ h id rfl

@[simp] theorem book_watchCommit (c : Notice) : book (watchCommit c s) = book s := by
  unfold watchCommit
  rw [book_latchIf]
  exact book_onWu_same s rfl

theorem book_watchBoundary : book (watchBoundary s) = book s := by
  unfold watchBoundary
  dsimp only
  rw [book_latchIf, foldl_keeps (p := book) _ fun s q => book_requestSystem s q]
  exact book_onWu_same s rfl

/-! ## Journal Store (R39 to R44) -/

theorem withJs_passes (o : Nat) {f : Entry → State → State}
    (hf : ∀ e, (book s).holds .js = some e.tag → (book s).Passes 0 (book (f e s))) :
    (book s).Passes 0 (book (withJs o f s)) := by
  unfold withJs
  (repeat' split)
  case h_1 e hslot _ => exact hf e (by simp [book, State.heldTag, hslot])
  all_goals exact .refl _

theorem answerJs_passes {e : Entry} (r : Result) (fields : List Byte) (h : (book s).holds .js = some e.tag) :
    (book s).Passes 0 (book (answerJs e r fields s)) := by
  rw [book_answerJs]
  exact (Book.Passes.refl _).answer h

/-- The command in the slot goes on there. -/
theorem book_setJsPhase {e : Entry} (p : JsPhase) (h : (book s).holds .js = some e.tag) :
    book (setJsSlot (some { entry := e, phase := p }) s) = book s :=
  (book_setJsSlot s _).trans (Book.put_same h)

@[simp] theorem book_askAuToStop : book (askAuToStop s) = book s := by
  unfold askAuToStop
  split
  · exact (book_onJs_same _ rfl).trans rfl
  · rfl

theorem format_passes {e : Entry} (h : (book s).holds .js = some e.tag) : (book s).Passes 0 (book (format e s)) := by
  unfold format
  split
  · exact answerJs_passes s _ _ h
  · rw [book_askAuToStop]
    exact .of_eq (book_setJsPhase s _ h)

theorem book_ite_prepare (p : Prop) [Decidable p] : book (if p then prepare s else s) = book s := by
  split
  · exact book_prepare s
  · rfl

theorem setPolicy_passes {e : Entry} (h : (book s).holds .js = some e.tag) : (book s).Passes 0 (book (setPolicy e s)) := by
  unfold setPolicy
  split
  · exact answerJs_passes s _ _ h
  · have hset (p : Policy) (m : Nat) : book (s.onJs (fun j => { j with policy := p, mark := m })) = book s :=
      book_onJs_same s rfl
    refine .of_eq ?_
    rw [book_ite_prepare, book_requestCopy, book_setJsPhase _ _ (by rw [hset]; exact h), hset]

theorem journalStatus_passes {e : Entry} (h : (book s).holds .js = some e.tag) :
    (book s).Passes 0 (book (journalStatus e s)) := by
  unfold journalStatus
  split <;> exact answerJs_passes s _ _ h

theorem segmentInfo_passes {e : Entry} (h : (book s).holds .js = some e.tag) :
    (book s).Passes 0 (book (segmentInfo e s)) := by
  unfold segmentInfo
  (repeat' split) <;> exact answerJs_passes s _ _ h

@[simp] theorem book_abandonClearing (z : Nat) : book (abandonClearing z s) = book s := by
  unfold abandonClearing
  split
  · exact book_onJs_same _ rfl
  · rfl

theorem book_beginFormatting (z : Nat) {e : Entry} (h : (book s).holds .js = some e.tag) :
    book (beginFormatting z e s) = book s := by
  have hcleared : book ((clearAll (abandonClearing z s)).onJs (fun j => { j with journal := .formatting })) = book s := by
    rw [book_onJs_same _ rfl, clearAll, book_onJs_same _ rfl, book_abandonClearing]
  exact (book_setJsPhase _ _ (by rw [hcleared]; exact h)).trans hcleared

theorem exec_auStopped_passes {z : Nat} {t : State} (h : exec (.auStopped z) s = .next t) :
    (book s).Passes 0 (book t) := by
  by_cases hstop : s.js.auStopped = true ∧ ∃ e, s.js.slot = some { entry := e, phase := .formatStopping }
  · obtain ⟨ha, e, hslot⟩ := hstop
    rw [exec_auStopped_of_stopping z ha hslot] at h
    obtain rfl := Host.Outcome.next.inj h
    rw [book_beginFormatting _ z (by simp [book, State.heldTag, closeCursors_slot, hslot])]
    exact (Book.Passes.of_eq (book_onJs_same s rfl)).andThen (closeCursors_passes (s.onJs _))
  · obtain rfl := Host.Outcome.next.inj h
    split
    case h_1 e ha hslot => exact absurd ⟨ha, e, hslot⟩ hstop
    case h_2 => exact .refl _

/-! ## The end of a clearing (R27, R44) -/

theorem book_prepared (g : Seg) : book (prepared g s) = book s := book_onJs_same _ rfl

theorem book_openStates (g : Seg) (cells : List Host.Cell) : book (openStates g cells s) = book s := by
  unfold openStates
  dsimp only
  rw [book_latchIf]
  exact book_onJs_same s rfl

theorem book_thirdPhaseSteps (e : Entry) : ∀ f ∈ thirdPhaseSteps e, ∀ s, book (f s) = book s := by
  intro f hf s
  simp only [thirdPhaseSteps, List.mem_cons, List.not_mem_nil, or_false] at hf
  obtain rfl | rfl | rfl | rfl | rfl | rfl := hf
  · rw [book_requestCopy]; exact book_openStates s 0 _
  · exact book_prepare s
  · rfl
  · exact book_onCp_same s rfl
  · exact book_onJs_same s rfl
  · exact book_requestCopy s

theorem book_thirdPhase (e : Entry) (n : Nat) : book (thirdPhase e n s) = book s := by
  have hall (l : List (State → State)) (hl : ∀ f ∈ l, ∀ s, book (f s) = book s) (s : State) :
      book (l.foldl (fun s f => f s) s) = book s := by
    induction l generalizing s with
    | nil => rfl
    | cons f l ih =>
      exact (ih (fun g hg => hl g (List.mem_cons_of_mem f hg)) _).trans (hl f List.mem_cons_self s)
  exact hall _ (fun f hf => book_thirdPhaseSteps e f (List.mem_of_mem_take hf)) s

theorem book_placeFormatted (q : SysRequest) : book (placeFormatted q s) = book s := by
  unfold placeFormatted
  dsimp only
  split <;> rfl

theorem book_formatReady {e : Entry} (n : Nat) (w : CopyWait) (h : (book s).holds .js = some e.tag) :
    book (formatReady e n w s) = book s := by
  let u := placeFormatted (SysRequest.make .formatted e.renumbers.toNat (be32 n)) s
  have hu : book u = book s := book_placeFormatted s _
  exact (book_onJs _ _).trans (Book.put_same (b := book u) (by rw [hu]; exact h) |>.trans hu)

theorem book_formatCleared (g : Seg) : book (formatCleared g s) = book s := by
  unfold formatCleared
  split
  case h_1 e n hslot =>
    split
    · exact book_onJs_same s rfl
    · have hthird := book_thirdPhase s e 6
      have hjs : (book s).holds .js = some e.tag := by simp [book, State.heldTag, hslot]
      exact (book_formatReady _ n _ (hthird ▸ hjs)).trans hthird
  case h_2 => rfl

theorem book_coldCleared (g : Seg) : book (coldCleared g s) = book s := by
  unfold coldCleared
  split
  · exact book_onJs_same s rfl
  · exact (book_onJs_same _ rfl).trans (book_openStates s 0 _)

/-! ## The end of a control block write (R36, R37) -/

theorem book_copyWritten (w : CopyWrite) : book (copyWritten w s) = book s := by
  unfold copyWritten
  rw [book_onJs_same _ rfl]
  cases hw : w.target <;> rfl

theorem finishFormat_passes : (book s).Passes 0 (book (finishFormat s)) := by
  unfold finishFormat
  split
  case h_1 sl hslot =>
    split
    · exact answerJs_passes s (e := sl.entry) _ _ (by simp [book, State.heldTag, hslot])
    all_goals exact .refl _
  case h_2 => exact .refl _

theorem formattedEnded_passes : (book s).Passes 0 (book (formattedEnded s)) := by
  unfold formattedEnded
  refine (Book.Passes.of_eq ?_).andThen (finishFormat_passes _)
  rw [book_onJs]
  refine Book.put_same ?_
  split <;> simp [book, State.heldTag, *]

theorem jsCompletes_passes : (book s).Passes 0 (book (jsCompletes s)) := by
  unfold jsCompletes
  split
  case h_1 e hslot => exact answerJs_passes s _ _ (by simp [book, State.heldTag, hslot])
  case h_2 e a hslot =>
    have hset := book_setJsPhase s (e := e) (.formatEnding a none) (by simp [book, State.heldTag, hslot])
    exact (Book.Passes.of_eq hset).andThen (finishFormat_passes _)
  case h_3 => exact .refl _

theorem answerCp_passes {e : Entry} (r : Result) (fields : List Byte) (h : (book s).holds .cp = some e.tag) :
    (book s).Passes 0 (book (answerCp e r fields s)) := by
  rw [book_answerCp]
  exact (Book.Passes.refl _).answer h

theorem cpCompletes_passes : (book s).Passes 0 (book (cpCompletes s)) := by
  unfold cpCompletes
  split
  case h_1 e hslot => exact answerCp_passes s _ _ (by simp [book, State.heldTag, hslot])
  case h_2 => exact .refl _

theorem copyCompletes_passes : (book s).Passes 0 (book (copyCompletes s)) :=
  (jsCompletes_passes s).andThen (cpCompletes_passes _)

/-- A command that waits for the pending write waits for the one that begins. -/
theorem book_promoteJs :
    book (s.onJs (fun j => { j with slot := j.slot.map (fun x => { x with phase := x.phase.promote }) })) = book s := by
  rw [book_onJs]
  exact Book.put_same (by cases hs : s.js.slot <;> simp [book, State.heldTag, hs])

theorem book_promoteCp :
    book (s.onCp (fun p => { p with slot := p.slot.map (fun x => { x with phase := x.phase.promote }) })) = book s := by
  rw [book_onCp]
  exact Book.put_same (by cases hs : s.cp.slot <;> simp [book, State.heldTag, hs])

theorem book_nextCopy : book (nextCopy s) = book s := by
  have hstart (s : State) : book (startCopy s) = book s := book_onJs_same s rfl
  unfold nextCopy
  split
  · exact (book_promoteCp _).trans ((book_promoteJs _).trans ((hstart _).trans (book_onJs_same s rfl)))
  · rfl

/-! ## The receiver and the acknowledges (R130 to R149) -/

theorem book_framingFailure : book (framingFailure s) = book s := by
  unfold framingFailure
  rw [book_latch]
  exact book_onCp_same s (by simp)

theorem book_recordByte (c : Byte) (r : Reception) : book (recordByte c r s) = book s := by
  unfold recordByte
  dsimp only
  split
  · exact book_framingFailure s
  · split
    · exact book_onCp_same s rfl
    · exact book_onCp_same s (by simp)

theorem book_endMarker (r : Reception) : book (endMarker r s) = book s := by
  unfold endMarker
  dsimp only
  split
  · exact book_onCp_same s (by simp)
  · split
    · exact book_onCp_same s (by simp [Cp.probeDone, Cp.onNode])
    · rw [book_latch]
      exact book_onCp_same s (by simp [Cp.discardDone, Cp.onNode])

theorem book_trailerByte (c : Byte) (good : Bool) : book (trailerByte c good s) = book s := by
  unfold trailerByte
  (repeat' split)
  · exact book_endMarker s _
  · exact book_framingFailure s
  · rfl

theorem book_recordsByte (c : Byte) (good : Bool) : book (recordsByte c good s) = book s := by
  unfold recordsByte
  (repeat' split)
  · exact book_recordByte s c _
  · exact book_framingFailure s
  · rfl

theorem book_receive (c : Byte) (good : Bool) : book (receive c good s) = book s := by
  unfold receive
  split
  · rfl
  · rfl
  · rfl
  · split
    · exact book_onCp_same s rfl
    · exact book_onCp_same s (by simp)
  · split
    · exact book_onCp_same s (by simp)
    · exact book_framingFailure s
  · exact book_recordsByte s c good
  · exact book_trailerByte s c good
  · split
    · split
      · exact book_recordsByte s c good
      · exact book_trailerByte s c good
    · rfl

theorem book_applyCaptureSet {e : Entry} (h : (book s).holds .cp = some e.tag) :
    book (applyCaptureSet e s) = book s := by
  unfold applyCaptureSet
  dsimp only
  rw [book_requestCopy, book_onCp]
  exact Book.put_same h

theorem book_afterFrame : book (afterFrame s) = book s := by
  unfold afterFrame
  split
  case h_1 e hslot => exact book_applyCaptureSet s (by simp [book, State.heldTag, hslot])
  case h_2 =>
    split
    · exact book_onCp_same s rfl
    · rfl

/-! ## The capture commands (R152 to R154) -/

theorem withCp_passes (o : Nat) {f : Entry → State → State}
    (hf : ∀ e, (book s).holds .cp = some e.tag → (book s).Passes 0 (book (f e s))) :
    (book s).Passes 0 (book (withCp o f s)) := by
  unfold withCp
  (repeat' split)
  case h_1 e hslot _ => exact hf e (by simp [book, State.heldTag, hslot])
  all_goals exact .refl _

theorem captureSet_passes {e : Entry} (h : (book s).holds .cp = some e.tag) :
    (book s).Passes 0 (book (captureSet e s)) := by
  unfold captureSet
  (repeat' split)
  · exact answerCp_passes s _ _ h
  · exact .of_eq ((book_onCp s _).trans (Book.put_same h))
  · exact .of_eq (book_applyCaptureSet s h)

theorem nodeSet_passes {e : Entry} (h : (book s).holds .cp = some e.tag) : (book s).Passes 0 (book (nodeSet e s)) := by
  unfold nodeSet
  (repeat' split)
  · exact answerCp_passes s _ _ h
  · exact answerCp_passes s _ _ h
  next n _ _ =>
    have hnode (f : Node → Node) : book (s.onCp (Cp.onNode n f)) = book s := book_onCp_same s rfl
    refine .of_eq ?_
    dsimp only
    rw [book_requestCopy, book_onCp, Book.put_same, hnode]
    rw [hnode]
    exact h

theorem nodeRead_passes {e : Entry} (h : (book s).holds .cp = some e.tag) : (book s).Passes 0 (book (nodeRead e s)) := by
  have hread (f : Cp → Cp) (hf : (f s.cp).slot = s.cp.slot) (p : Prop) [Decidable p] (fields : List Byte) :
      (book s).Passes 0 (book (answerCp e .done fields (if p then s.onCp f else s))) := by
    split
    · have hsame : book (s.onCp f) = book s := book_onCp_same s hf
      exact (Book.Passes.of_eq hsame).andThen (answerCp_passes _ _ _ (hsame ▸ h))
    · exact answerCp_passes s _ _ h
  unfold nodeRead
  split
  · exact answerCp_passes s _ _ h
  · split
    · exact hread _ rfl _ _
    · refine hread _ ?_ _ _
      unfold Cp.cleared
      split <;> rfl

end

end Sys2Proof.Machine
end

section
/-! SUPPORT. What it is for an operation to keep the laws that the book speaks of: the sixth law, the HP online exactly
in RUN, and how RUN begins and the latch is cleared (R163, R176 to R179, R194, R197). -/

namespace Sys2Proof.Machine

/-- The HP is online exactly in RUN, and a powered main domain has VMAIN. -/
def Power.online (p : Power) : Prop :=
  (p.offline = false ↔ p.supply = .run) ∧ ((p.supply ≠ .off ∧ p.supply ≠ .retain) → p.vmain = true)

theorem onlineLaw_iff (s : State) : onlineLaw s ↔ s.power.online := Iff.rfl

/-- The supply stays as it is, and the book lawful. -/
structure Stays (s t : State) : Prop where
  power : t.power = s.power
  law : onlineLaw s → (book s).lawful → (book t).lawful

/-- The laws of the book hold of `t` when they hold of `s`; RUN is entered from RECOVER and COLD_INIT alone, as R177,
R194 and R197 have it; the latch is cleared from COLD_INIT alone. -/
structure KeepsLaws (s t : State) : Prop where
  online : onlineLaw s → onlineLaw t
  law : onlineLaw s → (book s).lawful → (book t).lawful
  enters : s.pc.supply ≠ .run → t.pc.supply = .run → t.js.journal = .ready ∧ t.hp.offline = false ∧
    t.hp.flags.getLsbD 6 = true ∧ (s.pc.supply = .recover ∨ s.pc.supply = .coldInit)
  clears : s.pc.latch = true → t.pc.latch = false →
    s.pc.supply = .coldInit ∧ (t.pc.supply = .run ∨ t.pc.supply = .holdup)

theorem Book.Passes.stays {s t : State} {taken : Multiset Byte} (h : (book s).Passes taken (book t)) : Stays s t :=
  ⟨h.power, fun _ => h.keeps⟩

section

variable {s t u : State}

theorem Stays.of_eq (h : book t = book s) : Stays s t := (Book.Passes.of_eq h).stays

theorem Stays.supply (h : Stays s t) : t.pc.supply = s.pc.supply := congrArg Power.supply h.power

theorem Stays.latch (h : Stays s t) : t.pc.latch = s.pc.latch := congrArg Power.latch h.power

theorem Stays.online (h : Stays s t) (hs : onlineLaw s) : onlineLaw t := by
  rw [onlineLaw_iff, h.power]
  exact hs

theorem Stays.trans (h : Stays s u) (h' : Stays u t) : Stays s t :=
  ⟨h'.power.trans h.power, fun hs => h'.law (h.online hs) ∘ h.law hs⟩

theorem Stays.before (h : Stays s u) (h' : KeepsLaws u t) : KeepsLaws s t where
  online := h'.online ∘ h.online
  law hs := h'.law (h.online hs) ∘ h.law hs
  enters := h.supply ▸ h'.enters
  clears := h.supply ▸ h.latch ▸ h'.clears

theorem KeepsLaws.refl (s : State) : KeepsLaws s s :=
  ⟨id, fun _ => id, fun h hr => absurd hr h, fun h hc => by simp [h] at hc⟩

theorem Stays.keepsLaws (h : Stays s t) : KeepsLaws s t := h.before (.refl t)

theorem Book.Passes.keepsLaws {taken : Multiset Byte} (h : (book s).Passes taken (book t)) : KeepsLaws s t :=
  h.stays.keepsLaws

/-- What follows changes neither the supply nor the journal's state nor the HP. -/
theorem KeepsLaws.andThen (h : KeepsLaws s u) (h' : Stays u t) (hj : t.js.journal = u.js.journal) (hh : t.hp = u.hp) :
    KeepsLaws s t where
  online := h'.online ∘ h.online
  law hs := h'.law (h.online hs) ∘ h.law hs
  enters := by
    rw [hj, hh, h'.supply]
    exact h.enters
  clears := by
    rw [h'.latch, h'.supply]
    exact h.clears

/-- Another supply state than RUN is entered, with the latch as it is or set. -/
theorem KeepsLaws.of_not_run (hr : t.pc.supply ≠ .run) (hl : s.pc.latch = true → t.pc.latch = true)
    (honline : onlineLaw s → onlineLaw t) (hlaw : onlineLaw s → (book s).lawful → (book t).lawful) : KeepsLaws s t :=
  ⟨honline, hlaw, fun _ h => absurd h hr, fun h hc => by simp [hl h] at hc⟩

end

end Sys2Proof.Machine
end

section
/-! SUPPORT. The Host Port: dispatch passes a command on to its unit or its answer, an accepted command brings a new
outstanding tag, and a popped response takes its tag with it (R161 to R167). -/

namespace Sys2Proof.Machine

section

variable (s : State)

/-! ## Dispatch (R47, R164, R165) -/

/-- The head entry leaves the command queue. -/
theorem takeHead_passes {e : Entry} {rest : List Entry} (h : s.hp.commands = e :: rest) :
    (book s).Passes {e.tag} (book (s.onHp (fun h => { h with commands := rest }))) := by
  refine ⟨rfl, rfl, le_of_eq ?_, id⟩
  simp only [Book.live, book, State.onHp_hp, State.onHp_au, h, List.map_cons, ← Multiset.cons_coe, ← Multiset.singleton_add]
  change _ + heldTags s.heldTag + _ + _ = _
  abel

/-- A command on its way joins the host lane, or is answered (R47). -/
theorem takeAppend_passes {l : Book} (e : Entry) (h : l.Passes {e.tag} (book s)) :
    l.Passes 0 (book (takeAppend e s)) := by
  unfold takeAppend
  split
  · rw [book_answer]
    exact Book.Passes.post (by simpa using h)
  · refine { h with live := le_trans (le_of_eq ?_) h.live, placed := fun hl x hx => ?_ }
    · simp only [Book.live, book, State.onAu_au, State.onAu_hp, List.map_append, List.map_cons, List.map_nil,
        ← Multiset.coe_add, Multiset.coe_singleton]
      change _ + heldTags s.heldTag + _ + _ = _
      abel
    · have hmem := h.placed hl x hx
      simp only [book, State.onAu_au, List.map_append, List.mem_append] at hmem ⊢
      exact .inl hmem

theorem placeIn_passes {l : Book} (u : CmdUnit) (e : Entry) (h : l.Passes {e.tag} (book s)) :
    l.Passes 0 (book (placeIn u e s)) := by
  cases u with
  | au => exact takeAppend_passes s e h
  | js => exact book_onJs s _ ▸ h.fill .js
  | cu => exact book_setCuSlot s _ ▸ h.fill .cu
  | tb => exact book_onTb s _ ▸ h.fill .tb
  | wu => exact book_onWu s _ ▸ h.fill .wu
  | cp => exact book_onCp s _ ▸ h.fill .cp

theorem exec_dispatch_passes {t : State} (h : exec .dispatch s = .next t) : (book s).Passes 0 (book t) := by
  obtain rfl := Host.Outcome.next.inj h
  split
  case h_1 => exact .refl _
  case h_2 e rest hq =>
    have htaken := takeHead_passes s hq
    dsimp only
    split
    · rw [book_answer]
      exact Book.Passes.post (by simpa using htaken)
    · split
      · exact placeIn_passes _ _ e htaken
      · exact .refl _

theorem exec_append_passes {t : State} (h : exec .append s = .next t) : (book s).Passes 0 (book t) := by
  obtain rfl := Host.Outcome.next.inj h
  split
  case h_1 e rest hq =>
    split
    · exact takeAppend_passes _ e (takeHead_passes s hq)
    · exact .refl _
  case h_2 => exact .refl _

/-! ## Transactions (R157 to R159) -/

theorem book_closeTx : book (closeTx s) = book s := book_mapCursors _ Cursor.parkedTag_showHeld

theorem book_onBus {f : State → State} (hf : book (f s) = book s) : book (onBus f s) = book s := by
  unfold onBus
  split
  · exact hf
  · rfl

theorem book_openPort (p : TxPort) : book (openPort p s) = book s := book_closeTx s

/-- The rise of CS# keeps the laws that its effect on the HP keeps. -/
theorem rise_stays (f : Hp → Hp) (hf : Stays (closeTx s) ((closeTx s).onHp f)) : Stays s (rise f s) := by
  unfold rise onBus
  split
  · exact ⟨hf.power.trans (congrArg Book.power (book_closeTx s)),
      fun hs hl => hf.law ((Stays.of_eq (book_closeTx s)).online hs) (book_closeTx s ▸ hl)⟩
  · exact .of_eq rfl

/-! ## An accepted command and a popped response (R162, R163, R167) -/

theorem cmd_stays (bytes : List Byte) : Stays s (s.onHp (Hp.cmd bytes)) := by
  cases hj : s.hp.judge bytes with
  | some r =>
    have hcmd : s.hp.cmd bytes = { s.hp with reject := r, lastAccepted := false } := by simp [Hp.cmd, hj]
    exact .of_eq (by simp [book, State.power, State.onHp, hcmd]; rfl)
  | none =>
    obtain ⟨hon, -, -, hnew⟩ := Hp.judge_eq_none hj
    let x := (parseEntry bytes).tag
    have hcmd : book (s.onHp (Hp.cmd bytes)) =
        { book s with waiting := (book s).waiting ++ [x], tags := (book s).tags ++ [x] } := by
      simp [book, State.power, State.onHp, Hp.cmd, hj, x]
      rfl
    refine ⟨by simp [State.power, Hp.cmd, hj], fun hs hl => ?_⟩
    have hrun : (book s).power.supply = .run := hs.1.1 hon
    have hlive : ({ book s with waiting := (book s).waiting ++ [x], tags := (book s).tags ++ [x] } : Book).live =
        x ::ₘ (book s).live := by
      simp only [Book.live, ← Multiset.coe_add, Multiset.coe_singleton, ← Multiset.singleton_add]
      abel
    obtain ⟨hnodup, hmem⟩ := hl.unique hrun
    rw [hcmd]
    refine ⟨fun _ => ?_, fun hr => absurd hrun hr, hl.placed⟩
    rw [hlive, Multiset.nodup_cons]
    refine ⟨⟨fun hx => hnew (hmem x hx), hnodup⟩, fun y hy => ?_⟩
    exact List.mem_append.2 ((Multiset.mem_cons.1 hy).symm.imp (hmem y) List.mem_singleton.2)

theorem pop_stays {r : Response} {rest : List Response} (h : s.hp.responses = r :: rest) :
    Stays s (s.onHp (Hp.pop r)) := by
  refine ⟨rfl, fun _ hl => ?_⟩
  have hlive : r.tag ::ₘ (book (s.onHp (Hp.pop r))).live = (book s).live := by
    simp only [Book.live, book, State.onHp_hp, State.onHp_au, Hp.pop, h, List.drop_one, List.tail_cons, List.map_cons,
      ← Multiset.cons_coe, ← Multiset.singleton_add]
    change _ + (_ + heldTags s.heldTag + _) = _
    abel
  refine ⟨fun hr => ?_, fun hr hh => ?_, hl.placed⟩
  · obtain ⟨hnodup, hmem⟩ := hl.unique hr
    rw [← hlive, Multiset.nodup_cons] at hnodup
    refine ⟨hnodup.2, fun y hy => ?_⟩
    have hne : y ≠ r.tag := by rintro rfl; exact hnodup.1 hy
    exact (List.mem_erase_of_ne hne).2 (hmem y (hlive ▸ Multiset.mem_cons_of_mem hy))
  · exact absurd (hlive.trans (hl.idle hr hh)) (Multiset.cons_ne_zero)

theorem exec_rspPop_stays {clocked : Nat} {t : State} (h : exec (.rspPop clocked) s = .next t) : Stays s t := by
  obtain rfl := Host.Outcome.next.inj h
  refine rise_stays s _ ?_
  unfold Hp.popEffect
  split
  · split
    case isTrue hr =>
      obtain ⟨rest, hrest⟩ := List.head?_eq_some_iff.1 hr.2
      exact pop_stays _ hrest
    case isFalse => exact .of_eq rfl
  · exact .of_eq rfl

theorem book_ack (bytes : List Byte) : book (s.onHp (Hp.ack bytes)) = book s := by
  unfold State.onHp Hp.ack
  split <;> rfl

theorem book_setMask (bytes : List Byte) : book (s.onHp (Hp.setMask bytes)) = book s := by
  unfold State.onHp Hp.setMask
  split <;> rfl

/-- The end of a transaction that has taken its bytes keeps the laws that its port's effect keeps. -/
theorem finish_stays (p : Port) (bytes : List Byte)
    (hp : ∀ u : State, Stays u (u.onHp ((takeBytes p bytes s).hp.riseEffect))) : Stays s (finish p bytes s) := by
  unfold finish onBus
  dsimp only
  split
  case isTrue =>
    have hrise := rise_stays (takeBytes p bytes s) _ (hp _)
    exact ⟨hrise.power, hrise.law⟩
  case isFalse hoff =>
    unfold rise onBus
    rw [if_neg hoff]
    exact .of_eq rfl

end

end Sys2Proof.Machine
end

section
/-! SUPPORT. The append of a record, from the arbiter's choice to its end, keeps the laws, also where its end enters RUN
or closes the AU (R48 to R64, R176, R181, R194). -/

namespace Sys2Proof.Machine

/-! ## On the book alone -/

namespace Book

/-- The AU with its lane emptied and no record in progress. -/
def closed (b : Book) : Book := { b with lane := [], record := none }

theorem closed_passes (b : Book) : b.Passes 0 b.closed := by
  refine ⟨rfl, rfl, ?_, fun _ => nofun⟩
  simp only [closed, live, List.map_nil, Multiset.coe_nil, add_zero]
  gcongr
  exact le_self_add

theorem unrecorded_passes (b : Book) : b.Passes 0 { b with record := none } := { Passes.refl b with placed := fun _ => nofun }

/-- The host record in progress leaves its lane place and is answered. -/
theorem hostEnded_passes {b : Book} {x : Byte} (hp : b.placed) (hx : b.record = some x) :
    b.Passes 0 ({ b with lane := b.lane.filter (·.1 != PlaceState.inProgress), record := none }.post x) := by
  have hsplit : ((b.lane.filter (·.1 != PlaceState.inProgress)).map Prod.snd : Multiset Byte) + {x} ≤
      (b.lane.map Prod.snd : List Byte) := by
    have hmem : (PlaceState.inProgress, x) ∈ b.lane.filter (·.1 == .inProgress) := List.mem_filter.2 ⟨hp x hx, rfl⟩
    have hle : ({x} : Multiset Byte) ≤ ((b.lane.filter (·.1 == .inProgress)).map Prod.snd : List Byte) :=
      Multiset.singleton_le.2 (List.mem_map.2 ⟨_, hmem, rfl⟩)
    have hperm := ((List.filter_append_perm (·.1 == PlaceState.inProgress) b.lane).map Prod.snd)
    rw [← Multiset.coe_eq_coe, List.map_append, ← Multiset.coe_add] at hperm
    rw [← hperm, add_comm]
    exact add_le_add_left hle _
  refine Passes.post (taken := 0) ⟨rfl, rfl, ?_, fun _ => nofun⟩
  calc _ = (b.waiting : Multiset Byte) + (((b.lane.filter (·.1 != PlaceState.inProgress)).map Prod.snd : List Byte) + {x}) +
        heldTags b.holds + b.answered := by simp only [live]; abel
    _ ≤ b.live := by
      unfold live
      gcongr

end Book

section

variable (s : State)

/-! ## The record in progress -/

theorem book_setRecord (r : Option InProgress) :
    book (setRecord r s) = { book s with record := r.bind (·.origin.hostTag) } := rfl

theorem book_beginWrite (opened undo : List Host.Cell) (r : InProgress) :
    book (beginWrite opened undo r s) = { book s with record := r.origin.hostTag } := by
  unfold beginWrite
  split <;> rfl

theorem book_appendChecks (r : InProgress) : book (appendChecks r s) = { book s with record := r.origin.hostTag } := by
  unfold appendChecks
  split
  · split
    · exact book_beginWrite s [] [] r
    · rfl
  all_goals rfl

theorem book_openFor (g : Seg) (first : Nat) : book (openFor g first s) = book s := by
  unfold openFor
  dsimp only
  rw [book_prepare, book_requestCopy, book_openStates]
  exact book_onJs_same s rfl

theorem book_openAndWrite (r : InProgress) : book (openAndWrite r s) = { book s with record := r.origin.hostTag } := by
  unfold openAndWrite
  split
  · rw [book_beginWrite, book_openFor]
  all_goals rfl

/-- A record that goes on keeps the origin it has. -/
theorem book_same_origin {r r' : InProgress} (hr : s.au.record = some r) (ho : r'.origin = r.origin) :
    { book s with record := r'.origin.hostTag } = book s := by
  simp [book, hr, ho]

/-! ## Hold-up (R176, R181 to R183) -/

theorem book_endAuHoldup : book (endAuHoldup s) = { book s with record := none } := rfl

theorem book_closeAu : book (closeAu s) = (book s).closed := by
  unfold closeAu
  dsimp only
  split
  · rfl
  · split
    · rw [book_endAuHoldup, book_appendChecks]; rfl
    · rw [book_appendChecks]; rfl

theorem closeAu_hp : (closeAu s).hp = s.hp := by
  unfold closeAu endAuHoldup
  dsimp only
  (repeat' split) <;> simp

/-- HOLDUP is entered with the HP OFFLINE and VMAIN and the latch as they are, and a host record in progress keeps its
place. -/
theorem enterHoldup_book : (book (enterHoldup s)).power = { s.power with supply := .holdup, offline := true } ∧
    ((book s).placed → (book (enterHoldup s)).placed) := by
  unfold enterHoldup
  dsimp only
  split
  · exact ⟨rfl, id⟩
  · rw [book_closeAu]
    exact ⟨rfl, fun _ => nofun⟩

end

/-- HOLDUP follows what keeps the laws. -/
theorem KeepsLaws.thenHoldup {s u : State} (h : KeepsLaws s u) (hv : onlineLaw s → u.pc.vmain = true) :
    KeepsLaws s (enterHoldup u) := by
  obtain ⟨hpower, hplaced⟩ := enterHoldup_book u
  have hsupply : (enterHoldup u).pc.supply = .holdup := congrArg Power.supply hpower
  have hlatch : (enterHoldup u).pc.latch = u.pc.latch := congrArg Power.latch hpower
  refine ⟨fun hs => ?_, fun hs hl => ⟨fun hr => ?_, fun _ hh => absurd hsupply hh, hplaced (h.law hs hl).placed⟩,
    fun _ hr => ?_, fun hl hc => ⟨(h.clears hl (hlatch ▸ hc)).1, .inr hsupply⟩⟩
  · change (book (enterHoldup u)).power.online
    rw [hpower]
    exact ⟨by simp, fun _ => hv hs⟩
  · exact Supply.noConfusion (hsupply.symm.trans hr)
  · exact Supply.noConfusion (hsupply.symm.trans hr)

section

variable (s : State)

/-! ## The entry into RUN (R194, R197) -/

theorem book_running : book (running s) = { book s with
    power := { s.power with
      supply := .run, latch := if s.pc.supply = .coldInit then false else s.pc.latch, offline := false } } := by
  by_cases h : s.pc.supply = .coldInit
  · have hcopy := book_requestCopy s
    have hrunning : book (running s) = { book (requestCopy s) with
        power := { (requestCopy s).power with supply := .run, latch := false, offline := false } } := by
      simp only [running, h, if_true]
      rfl
    rw [hrunning, hcopy]
    simp [h, State.power]
  · simp only [running, h, if_false]
    rfl

theorem running_keepsLaws (h : s.pc.supply = .recover ∨ s.pc.supply = .coldInit) : KeepsLaws s (running s) := by
  have hbook := book_running s
  have hpower := congrArg Book.power hbook
  have hsupply : (running s).pc.supply = .run := congrArg Power.supply hpower
  have hlatch : (running s).pc.latch = if s.pc.supply = .coldInit then false else s.pc.latch := congrArg Power.latch hpower
  have hout : s.pc.supply ≠ .run ∧ s.pc.supply ≠ .holdup ∧ s.pc.supply ≠ .off ∧ s.pc.supply ≠ .retain := by
    obtain h | h := h <;> simp [h]
  obtain ⟨hrun, hholdup, hoff⟩ := hout
  refine ⟨fun hs => ?_, fun _ hl => ?_, fun _ _ => ⟨rfl, rfl, ?_, h⟩, fun hl hc => ?_⟩
  · change (book (running s)).power.online
    rw [hpower]
    exact ⟨by simp, fun _ => hs.2 hoff⟩
  · rw [hbook]
    have hlive : (book s).live = 0 := hl.idle hrun hholdup
    refine ⟨fun _ => ?_, fun hr => absurd rfl hr, hl.placed⟩
    change (book s).live.Nodup ∧ ∀ x ∈ (book s).live, _
    rw [hlive]
    exact ⟨Multiset.nodup_zero, fun x hx => absurd hx (Multiset.notMem_zero x)⟩
  · simp [running, Hp.flags]
  · refine ⟨?_, .inl hsupply⟩
    by_contra hcold
    rw [hlatch, if_neg hcold, hl] at hc
    exact Bool.noConfusion hc

theorem enterRun_keepsLaws (h : s.pc.supply = .recover ∨ s.pc.supply = .coldInit) : KeepsLaws s (enterRun s) := by
  have hrunning := running_keepsLaws s h
  rw [enterRun_eq]
  split
  · refine hrunning.thenHoldup fun hs => ?_
    exact (hrunning.online hs).2 (by simp [running])
  · exact hrunning

/-! ## The end of an append (R58 to R64) -/

theorem afterAppend_keepsLaws (o : Origin) : KeepsLaws s (afterAppend o s) := by
  unfold afterAppend
  split
  · split
    · exact enterRun_keepsLaws s ‹_›
    · exact .refl _
  · split
    · exact enterRun_keepsLaws s ‹_›
    · exact .refl _
  · exact (formattedEnded_passes s).keepsLaws
  all_goals exact .refl _

theorem stopsAfterAppend_passes : (book s).Passes 0 (book (stopsAfterAppend s)) ∧
    (stopsAfterAppend s).js.journal = s.js.journal ∧ (stopsAfterAppend s).hp = s.hp := by
  unfold stopsAfterAppend
  (repeat' split)
  · rw [book_closeAu]
    exact ⟨(book s).closed_passes, by simp, closeAu_hp s⟩
  · rw [book_onJs_same _ rfl]
    exact ⟨.refl _, rfl, rfl⟩
  · exact ⟨.refl _, rfl, rfl⟩

theorem endAppend_keepsLaws (o : Origin) : KeepsLaws (setRecord none s) (endAppend o s) := by
  unfold endAppend
  split
  · exact (Stays.of_eq (s := setRecord none s) (t := endAuHoldup s) rfl).keepsLaws
  · obtain ⟨hpasses, hjournal, hhp⟩ := stopsAfterAppend_passes (afterAppend o (setRecord none s))
    exact (afterAppend_keepsLaws _ o).andThen hpasses.stays hjournal hhp

theorem setRecord_none_stays : Stays s (setRecord none s) := (book s).unrecorded_passes.stays

theorem book_freePlace : book (freePlace s) = { book s with lane := (book s).lane.filter (·.1 != PlaceState.inProgress) } := by
  simp [book, State.power, freePlace, List.filter_map, Function.comp_def]
  rfl

/-- A host record in progress leaves its place with its answer. -/
theorem freePlace_post_stays {r : InProgress} {x : Response} (hr : s.au.record = some r) (ho : r.origin = .host x.tag) :
    Stays s (setRecord none (freePlace (post x s))) := by
  have hrecord : (book s).record = some x.tag := by simp [book, hr, ho, Origin.hostTag]
  have hended : book (setRecord none (freePlace (post x s))) =
      Book.post x.tag { book s with lane := (book s).lane.filter (·.1 != PlaceState.inProgress), record := none } := by
    rw [book_setRecord, book_freePlace, book_post]
    unfold Book.post
    split <;> rfl
  refine ⟨?_, fun _ hl => hended ▸ (Book.hostEnded_passes hl.placed hrecord).keeps hl⟩
  simp [State.power, setRecord, freePlace, post, Hp.post]
  split <;> rfl

theorem book_commitAndTell (r : InProgress) : book (commitAndTell r s) = book s :=
  Book.ext rfl rfl rfl rfl rfl (funext fun h => by cases h <;> rfl) rfl

/-- A commit answers a host record and frees its place; for the others it leaves the book. -/
theorem commit_stays {r : InProgress} (hr : s.au.record = some r) : Stays s (setRecord none (commit r s)) := by
  refine (Stays.of_eq (book_commitAndTell s r)).trans ?_
  cases ho : r.origin with
  | host tag =>
    rw [commit_of_host s ho]
    exact freePlace_post_stays (commitAndTell r s) hr ho
  | system kind =>
    rw [commit_of_system s ho]
    exact setRecord_none_stays _
  | capture i k =>
    rw [commit_of_capture s ho]
    exact (Stays.of_eq (book_onCp_same _ rfl)).trans (setRecord_none_stays _)

theorem exec_writeStepEnd_keepsLaws {t : State} (h : exec .writeStepEnd s = .next t) : KeepsLaws s t := by
  obtain rfl := Host.Outcome.next.inj h
  split
  next r hr =>
    split
    · exact (commit_stays s hr).before (endAppend_keepsLaws _ _)
    all_goals exact .refl _
  next => exact .refl _

/-- A refusal answers a host record and frees its place; the others are dropped, or wait for the CP. -/
theorem refuse_keepsLaws (code : Result) {r r' : InProgress} (hr : s.au.record = some r') (ho : r.origin = r'.origin) :
    KeepsLaws s (refuse code r s) := by
  unfold refuse
  split
  next tag htag => exact (freePlace_post_stays s hr (ho ▸ htag)).before (endAppend_keepsLaws _ _)
  next => exact (setRecord_none_stays s).before (endAppend_keepsLaws _ _)
  next =>
    exact (Stays.of_eq (book_loseSystem s)).before ((setRecord_none_stays _).before (endAppend_keepsLaws _ _))
  next i k hi =>
    refine (Stays.of_eq ?_).keepsLaws
    rw [book_onCp_same _ rfl]
    exact book_same_origin s hr (r' := { r with phase := .refused code }) ho

theorem settleRefusal_keepsLaws : KeepsLaws s (settleRefusal s) := by
  unfold settleRefusal
  split
  next r hr =>
    split
    · exact refuse_keepsLaws s _ hr rfl
    all_goals exact .refl _
  next => exact .refl _

theorem endRefused_keepsLaws : KeepsLaws s (endRefused s) := by
  unfold endRefused
  split
  next r hr =>
    split
    · exact (setRecord_none_stays s).before (endAppend_keepsLaws _ _)
    all_goals exact .refl _
  next => exact .refl _

theorem exec_refusalNotice_keepsLaws {t : State} (h : exec .refusalNotice s = .next t) : KeepsLaws s t := by
  obtain rfl := Host.Outcome.next.inj h
  have htaken : book (s.onCp (fun p => { p with refusal := none })) = book s := book_onCp_same s rfl
  split
  next n _ =>
    split
    · refine (Stays.of_eq ?_).before (endRefused_keepsLaws _)
      split
      · exact htaken
      · rw [book_latch]
        exact (book_onCp_same _ (by simp)).trans htaken
    · exact .refl _
  next => exact .refl _

/-! ## The arbiter's choice (R48 to R53) -/

/-- The append of a taken record, whose host lane place is taken with it. -/
theorem beginAppend_keepsLaws (data : Record) (o : Origin)
    (ho : ∀ x, o.hostTag = some x → (PlaceState.inProgress, x) ∈ (book s).lane) : KeepsLaws s (beginAppend data o s) := by
  have hchecks := book_appendChecks s (InProgress.take data o)
  have hpasses : (book s).Passes 0 (book (appendChecks (InProgress.take data o) s)) := by
    rw [hchecks]
    exact { Book.Passes.refl (book s) with placed := fun _ => ho }
  exact hpasses.stays.before (settleRefusal_keepsLaws _)

theorem takeSystem_keepsLaws (q : SysRequest) : KeepsLaws s (takeSystem q s) := by
  let u := s.onAu (fun a => { a with systemLane := a.systemLane.drop 1 })
  have hu : book u = book s := rfl
  exact (Stays.of_eq hu).before (beginAppend_keepsLaws u _ _ fun _ h => by simp [Origin.hostTag] at h)

/-- Taking the first waiting place keeps the tags of the lane in their order and the places in progress. -/
theorem takeFirstWaiting_lane (l : List HostPlace) :
    (takeFirstWaiting l).map (·.entry.tag) = l.map (·.entry.tag) ∧
      ∀ p ∈ l, p.state = .inProgress → p ∈ takeFirstWaiting l := by
  induction l with
  | nil => simp [takeFirstWaiting]
  | cons p l ih =>
    obtain ⟨htags, hstay⟩ := ih
    unfold takeFirstWaiting
    split
    next hw =>
      refine ⟨rfl, fun q hq hp => ?_⟩
      obtain rfl | hq := List.mem_cons.1 hq
      · simp [hw] at hp
      · exact List.mem_cons_of_mem _ hq
    next =>
      refine ⟨by simp [htags], fun q hq hp => ?_⟩
      exact List.mem_cons.2 ((List.mem_cons.1 hq).imp_right (hstay q · hp))

/-- The first waiting place is in progress once it is taken. -/
theorem taken_mem_takeFirstWaiting {l : List HostPlace} {p : HostPlace}
    (h : l.find? (fun p => p.state == .waiting) = some p) : { p with state := .inProgress } ∈ takeFirstWaiting l := by
  induction l with
  | nil => simp at h
  | cons q l ih =>
    unfold takeFirstWaiting
    split
    next hq =>
      rw [List.find?_cons_of_pos (by simpa using hq)] at h
      obtain rfl := Option.some.inj h
      exact List.mem_cons_self
    next hq =>
      rw [List.find?_cons_of_neg (by simpa using hq)] at h
      exact List.mem_cons_of_mem _ (ih h)

theorem takeHost_keepsLaws : KeepsLaws s (takeHost s) := by
  unfold takeHost
  split
  next p hp =>
    obtain ⟨htags, hstay⟩ := takeFirstWaiting_lane s.au.hostLane
    let u := s.onAu (fun a => { a with hostLane := takeFirstWaiting a.hostLane, lastServed := .host })
    have hpasses : (book s).Passes 0 (book u) := by
      refine { Book.Passes.refl (book s) with live := le_of_eq ?_, placed := fun hpl x hx => ?_ }
      · have hlane : (book u).lane.map Prod.snd = (book s).lane.map Prod.snd := by
          simpa [u, book, Function.comp_def] using htags
        rw [add_zero]
        unfold Book.live
        rw [hlane]
        rfl
      · obtain ⟨q, hq, heq⟩ := List.mem_map.1 (hpl x hx)
        exact List.mem_map.2 ⟨q, hstay q hq (congrArg Prod.fst heq), heq⟩
    refine hpasses.stays.before (beginAppend_keepsLaws u _ _ fun x hx => ?_)
    obtain rfl := Option.some.inj hx
    exact List.mem_map.2 ⟨_, taken_mem_takeFirstWaiting hp, rfl⟩
  next => exact .refl _

theorem takeCapture_keepsLaws (i : Fin 2) (k : Nat) : KeepsLaws s (takeCapture i k s) := by
  unfold takeCapture
  split
  next b _ =>
    let u := (s.onCp (Cp.onSlot i (Burst.resolve k .inAppend))).onAu (fun a => { a with lastServed := .capture })
    have hu : book u = book s := book_onCp_same s rfl
    exact (Stays.of_eq hu).before (beginAppend_keepsLaws u _ _ fun _ h => by simp [Origin.hostTag] at h)
  next => exact .refl _

theorem arbiterChoice_keepsLaws : KeepsLaws s (arbiterChoice s) := by
  unfold arbiterChoice
  split
  · exact .refl _
  · split
    · exact takeSystem_keepsLaws s _
    · (repeat' split)
      · exact takeHost_keepsLaws s
      · exact .refl _
      · exact takeHost_keepsLaws s
      · exact takeCapture_keepsLaws s _ _

/-! ## The next segment (R54, R55) -/

theorem nextSegmentRequest_keepsLaws {r : InProgress} (hr : s.au.record = some r) :
    KeepsLaws s (nextSegmentRequest r s) := by
  have hwaits (u : State) (hu : book u = book s) :
      KeepsLaws s (setRecord (some { r with phase := .waitingClear }) u) := by
    refine (Stays.of_eq ?_).keepsLaws
    rw [book_setRecord, hu]
    exact book_same_origin s hr (r' := { r with phase := .waitingClear }) rfl
  unfold nextSegmentRequest
  dsimp only
  split
  · refine (Stays.of_eq ?_).keepsLaws
    rw [book_openAndWrite]
    exact book_same_origin s hr rfl
  · exact hwaits s rfl
  · exact hwaits _ (book_prepare s)
  · split
    · exact refuse_keepsLaws s _ hr rfl
    · split
      · exact refuse_keepsLaws s _ hr rfl
      · exact hwaits _ (book_prepare s)
  · exact .refl _

theorem exec_nextSegmentRequest_keepsLaws {t : State} (h : exec .nextSegmentRequest s = .next t) : KeepsLaws s t := by
  obtain rfl := Host.Outcome.next.inj h
  split
  next r hr =>
    split
    · exact nextSegmentRequest_keepsLaws s hr
    all_goals exact .refl _
  next => exact .refl _

theorem book_preparationCleared : book (preparationCleared s) = book s := by
  unfold preparationCleared
  split
  next r hr =>
    split
    · rw [book_openAndWrite]
      exact book_same_origin s hr rfl
    all_goals rfl
  next => rfl

theorem book_exec_clearingEnd {t : State} (h : exec .clearingEnd s = .next t) : book t = book s := by
  obtain rfl := Host.Outcome.next.inj h
  split
  next => rfl
  next g _ =>
    rw [← book_prepared s g]
    dsimp only
    split
    · exact book_coldCleared _ g
    · split
      · exact book_formatCleared _ g
      all_goals exact book_preparationCleared _

end

end Sys2Proof.Machine
end

section
/-! SUPPORT. The supply rows, START, recovery and cold initialisation keep the laws: what is lost leaves no host
command, and RUN is entered by none of them (R176 to R197). -/

namespace Sys2Proof.Machine

/-! ## On the book alone -/

theorem heldTags_le {f g : Holder → Option Byte} (h : ∀ k, f k = none ∨ f k = g k) : heldTags f ≤ heldTags g :=
  Finset.sum_le_sum fun k _ => by
    obtain hk | hk := h k <;> simp [hk]

namespace Book

/-- No host command outstanding, with the HP OFFLINE. -/
def lost (p : Power) : Book :=
  { power := { p with offline := true }, tags := [], waiting := [], lane := [], record := none, holds := fun _ => none,
    answered := [] }

theorem live_lost (p : Power) : (lost p).live = 0 := by
  simp [live, lost, heldTags]

theorem lawful_lost {p : Power} (h : p.supply ≠ .run) : (lost p).lawful :=
  ⟨fun hr => absurd hr h, fun _ _ => live_lost p, nofun⟩

/-- What the units hold may be lost with the record in progress, and the supply state may change, where it is neither
RUN nor HOLDUP before nor after. -/
theorem lawful_of_moves {l m : Book} (hl : l.lawful) (hr : l.power.supply ≠ .run) (hh : l.power.supply ≠ .holdup)
    (hm : m.power.supply ≠ .run) (hlive : m.live ≤ l.live) (hplaced : l.placed → m.placed) : m.lawful :=
  ⟨fun h => absurd h hm, fun _ _ => Multiset.le_zero.1 (hl.idle hr hh ▸ hlive), hplaced hl.placed⟩

/-- The same operation seen from the book: the queues and the lane stay, and each holder has what it had or nothing. -/
theorem live_le_of_holds {l m : Book} (h : ∀ k, m.holds k = none ∨ m.holds k = l.holds k)
    (hm : m = { l with power := m.power, holds := m.holds }) : m.live ≤ l.live := by
  have hheld := heldTags_le h
  rw [hm]
  unfold live
  dsimp only
  gcongr

end Book

section

variable (s : State)

/-! ## Abrupt stops and the supply rows (R178, R179, R185, R186) -/

theorem book_mainLost : book (mainLost s) = .lost s.power :=
  Book.ext rfl rfl rfl rfl rfl (funext fun h => by
    cases h <;> simp [book, State.heldTag, mainLost, Book.lost, Js.start, Tb.atStart, Cu.start, Wu.start, Cp.start,
      Cursor.start, Cursor.parkedTag]) rfl

theorem book_stopMain (cut : Cut) : book (stopMain cut s) = .lost s.power := by
  have htear : (tear cut s).power.supply = s.power.supply ∧ (tear cut s).power.vmain = s.power.vmain ∧
      (tear cut s).power.latch = s.power.latch := by simp [State.power]
  obtain ⟨hsupply, hvmain, hlatch⟩ := htear
  unfold stopMain
  rw [book_mainLost]
  split
  · simp only [Book.lost, hsupply, hvmain, hlatch]
  · rfl

/-- The main domain is lost, and another supply state than RUN is entered. -/
theorem keepsLaws_of_lost {s t : State} {p : Power} (hb : book t = .lost p) (hr : p.supply ≠ .run)
    (hl : s.pc.latch = true → p.latch = true)
    (hv : onlineLaw s → (p.supply ≠ .off ∧ p.supply ≠ .retain) → p.vmain = true) : KeepsLaws s t := by
  have hpower : t.power = { p with offline := true } := congrArg Book.power hb
  refine .of_not_run ?_ (fun h => (congrArg Power.latch hpower).trans (hl h)) (fun hs => ?_) fun _ _ => ?_
  · exact fun h => hr ((congrArg Power.supply hpower).symm.trans h)
  · rw [onlineLaw_iff, hpower]
    exact ⟨by simp [hr], hv hs⟩
  · exact hb ▸ Book.lawful_lost hr

theorem Supply.powered_vmain {s : State} (hs : onlineLaw s) (h : s.pc.supply.powered = true) : s.pc.vmain = true := by
  refine hs.2 ⟨?_, ?_⟩ <;> intro he <;> simp [he, Supply.powered] at h

theorem exec_resetAssert_keepsLaws {cut : Cut} {t : State} (h : exec (.resetAssert cut) s = .next t) :
    KeepsLaws s t := by
  obtain rfl := Host.Outcome.next.inj h
  dsimp only
  split
  next hp =>
    let u := s.onPc (fun p => { p with resetLow := true })
    have hb : book ((stopMain cut u).onPc (fun p => { p with supply := .reset })) =
        .lost { s.power with supply := .reset } := by
      have hstop := book_stopMain u cut
      change { book (stopMain cut u) with power := { (book (stopMain cut u)).power with supply := .reset } } = _
      rw [hstop]
      rfl
    exact keepsLaws_of_lost hb (by simp) id fun hs _ => Supply.powered_vmain hs hp
  next => exact (Stays.of_eq (by rfl)).keepsLaws

theorem book_enterUnpowered {p : Power} (h : book s = .lost p) : ∃ q, book (enterUnpowered s) = .lost q ∧
    (q.supply = .off ∨ q.supply = .retain) ∧ (p.latch = true → q.latch = true) := by
  have hlatch : s.pc.latch = p.latch := congrArg (·.power.latch) h
  unfold enterUnpowered
  split
  · refine ⟨{ p with supply := .retain }, ?_, .inr rfl, id⟩
    change { book s with power := { (book s).power with supply := .retain } } = _
    rw [h]
    rfl
  · refine ⟨{ p with supply := .off, latch := true }, ?_, .inl rfl, fun _ => rfl⟩
    have hoff : book (enterOff s) = { (book s).put .tb none with
        power := { (book s).power with supply := .off, latch := true } } :=
      Book.ext rfl rfl rfl rfl rfl (funext fun k => by cases k <;> rfl) rfl
    rw [hoff, h]
    exact Book.ext rfl rfl rfl rfl rfl (by simp [Book.put, Book.lost]) rfl

theorem exec_vmainLost_keepsLaws {cut : Cut} {t : State} (h : exec (.vmainLost cut) s = .next t) : KeepsLaws s t := by
  obtain rfl := Host.Outcome.next.inj h
  split
  · obtain ⟨q, hb, hq, hlatch⟩ := book_enterUnpowered _ (book_stopMain (s.onPc (fun p => { p with vmain := false })) cut)
    refine keepsLaws_of_lost hb ?_ hlatch fun _ hne => ?_
    · obtain hq | hq := hq <;> simp [hq]
    · exact absurd hq (not_or.2 hne)
  · exact .refl _

theorem exec_resetRelease_keepsLaws {t : State} (h : exec .resetRelease s = .next t) : KeepsLaws s t := by
  obtain rfl := Host.Outcome.next.inj h
  by_cases hr : s.pc.supply = .reset
  · refine .of_not_run (by simp [hr]) id (fun hs => ⟨?_, fun _ => hs.2 (by simp [hr])⟩) fun _ hl => ?_
    · simpa [hr] using hs.1
    · exact Book.lawful_of_moves hl (by simp [book, State.power, hr]) (by simp [book, State.power, hr])
        (by simp [book, State.power, hr]) le_rfl id
  · exact (Stays.of_eq (by simp [book, State.power, hr]; rfl)).keepsLaws

theorem exec_vbatRise_keepsLaws {t : State} (h : exec .vbatRise s = .next t) : KeepsLaws s t := by
  obtain rfl := Host.Outcome.next.inj h
  by_cases hoff : s.pc.supply = .off
  · refine .of_not_run (by simp [hoff]) id (fun hs => ⟨?_, by simp [hoff]⟩) fun _ hl => ?_
    · simpa [hoff] using hs.1
    · exact Book.lawful_of_moves hl (by simp [book, State.power, hoff]) (by simp [book, State.power, hoff])
        (by simp [book, State.power, hoff]) le_rfl id
  · exact (Stays.of_eq (by simp [book, State.power, hoff]; rfl)).keepsLaws

theorem exec_vmainRise_keepsLaws {t : State} (h : exec .vmainRise s = .next t) : KeepsLaws s t := by
  obtain rfl := Host.Outcome.next.inj h
  split
  next => exact .refl _
  next hv =>
    have hsupply : (if s.pc.resetLow then Supply.reset else .start) ≠ .run := by split <;> simp
    have hout (hs : onlineLaw s) := supply_of_no_vmain hs (Bool.not_eq_true _ ▸ hv)
    refine .of_not_run hsupply id (fun hs => ⟨?_, fun _ => rfl⟩) fun hs hl => ?_
    · exact iff_of_false (mt hs.1.1 (hout hs).1) hsupply
    · exact Book.lawful_of_moves hl (hout hs).1 (hout hs).2 hsupply le_rfl id

theorem exec_vbatFall_keepsLaws {t : State} (h : exec .vbatFall s = .next t) : KeepsLaws s t := by
  obtain rfl := Host.Outcome.next.inj h
  split
  case isFalse => exact .refl _
  case isTrue =>
    dsimp only
    split
    case isTrue => exact (Stays.of_eq (by rfl)).keepsLaws
    case isFalse hv =>
      have hout (hs : onlineLaw s) := supply_of_no_vmain hs (Bool.not_eq_true _ ▸ hv)
      refine .of_not_run (by simp [enterOff]) (fun _ => rfl) (fun hs => ⟨?_, by simp [enterOff]⟩) fun hs hl => ?_
      · exact iff_of_false (mt hs.1.1 (hout hs).1) (by simp [enterOff])
      · refine Book.lawful_of_moves hl (hout hs).1 (hout hs).2 (by simp [book, State.power, enterOff]) ?_ id
        exact Book.live_le_of_holds (fun k => by cases k <;> simp [book, State.heldTag, enterOff, Tb.atStart]) rfl

/-! ## START, recovery, cold initialisation (R180, R188 to R197) -/

/-- Cold initialisation begins from START with the latch as it is or just set. -/
theorem beginCold_keepsLaws {s u : State} (hs : s.pc.supply = .start) (hu : book u = { book s with power := u.power })
    (hv : u.pc.vmain = s.pc.vmain) (ho : u.hp.offline = s.hp.offline) (hl : s.pc.latch = true → u.pc.latch = true) :
    KeepsLaws s (beginCold u) := by
  refine .of_not_run (by simp [beginCold, clearAll]) (by simpa [beginCold, clearAll] using hl)
    (fun hon => ⟨?_, fun _ => ?_⟩) fun _ h => ?_
  · have hoff := hon.1
    simp [hs] at hoff
    simp [beginCold, clearAll, ho, hoff]
  · have hvmain := hon.2 (by simp [hs])
    simpa [beginCold, clearAll, hv] using hvmain
  · have hcold : book (beginCold u) = { book u with
        power := (beginCold u).power, holds := (book (beginCold u)).holds } := rfl
    refine Book.lawful_of_moves h (by simp [book, State.power, hs]) (by simp [book, State.power, hs])
      (by simp [book, State.power, beginCold, clearAll]) ?_ ?_
    · rw [hu] at hcold
      refine Book.live_le_of_holds (fun k => ?_) hcold
      have hk : (book s).holds k = (book u).holds k := by rw [hu]
      rw [hk]
      cases k <;> simp [book, State.heldTag, beginCold, clearAll, Tb.atStart, Cp.start]
    · rw [hcold, hu]
      exact id

theorem exec_retentionLatchExamine_keepsLaws {t : State} (h : exec .retentionLatchExamine s = .next t) :
    KeepsLaws s t := by
  obtain rfl := Host.Outcome.next.inj h
  split
  case isFalse => exact .refl _
  case isTrue hstart =>
    obtain ⟨hs, -, -⟩ := hstart
    split
    · exact beginCold_keepsLaws hs rfl rfl rfl id
    · unfold beginRecovery
      split
      · refine .of_not_run (by simp) id (fun hon => ⟨?_, fun _ => hon.2 (by simp [hs])⟩) fun _ hl => ?_
        · simpa [hs] using hon.1
        · exact Book.lawful_of_moves hl (by simp [book, State.power, hs]) (by simp [book, State.power, hs])
            (by simp [book, State.power]) le_rfl id
      · exact beginCold_keepsLaws hs rfl rfl rfl fun _ => rfl

/-- A main domain that has taken its values after a restart holds no host command but what the JS's slot keeps. -/
theorem restarted_passes {l m : Book} (hm : m = { l with lane := [], record := none, holds := m.holds })
    (h : ∀ k, m.holds k = none ∨ m.holds k = l.holds k) : l.Passes 0 m := by
  have hle : m.live ≤ l.closed.live := Book.live_le_of_holds h (by rw [hm]; rfl)
  have hclosed := l.closed_passes
  refine ⟨by rw [hm], by rw [hm], ?_, fun _ => by rw [hm]; exact nofun⟩
  rw [add_zero]
  exact hle.trans (by simpa using hclosed.live)

theorem book_ite_requestCopy (p : Prop) [Decidable p] : book (if p then requestCopy s else s) = book s := by
  split
  · exact book_requestCopy s
  · rfl

theorem recover_passes : (book s).Passes 0 (book (recover s)) := by
  unfold recover
  dsimp only
  rw [book_requestSystem, book_prepare, book_ite_requestCopy]
  refine restarted_passes rfl fun k => .inl ?_
  cases k <;> simp [book, State.heldTag, recoveredJs, Js.start, Cu.start, Tb.mainCleared, Wu.start, recoveredCp, Cp.start,
    Cursor.start, Cursor.parkedTag]

theorem coldStart_passes : (book s).Passes 0 (book (coldStart s)) := by
  unfold coldStart
  dsimp only
  rw [book_requestSystem, book_prepare]
  refine restarted_passes rfl fun k => ?_
  cases k with
  | js => exact .inr rfl
  | cu | tb | wu | cp | cursor =>
    exact .inl (by simp [book, State.heldTag, Cu.start, Tb.mainCleared, Wu.start, Cp.start, Cursor.start,
      Cursor.parkedTag])

/-! ## Hold-up and the end of a control block write (R37, R181, R184, R197) -/

theorem book_formatReached (made : Nat) : book (formatReached made s) = book s := by
  unfold formatReached
  split
  · split
    · rfl
    · rw [book_thirdPhase, book_prepared]
  · rfl

theorem exec_holdup_keepsLaws {change : PfiChange} {t : State} (h : exec (.holdup change) s = .next t) :
    KeepsLaws s t := by
  obtain rfl := Host.Outcome.next.inj h
  cases change with
  | falls made =>
    change KeepsLaws s (pfiFalls made s)
    unfold pfiFalls
    split
    next hr =>
      have hreached : book (formatReached made (setPfi true s)) = book s := book_formatReached _ made
      refine (Stays.of_eq hreached).keepsLaws.thenHoldup fun hs => ?_
      have hvmain := hs.2 (by simp [hr])
      simpa [setPfi] using hvmain
    next => exact (Stays.of_eq (by rfl)).keepsLaws
  | rises => exact (Stays.of_eq (by rfl)).keepsLaws

theorem book_exec_auEnded {z : Nat} {t : State} (h : exec (.auEnded z) s = .next t) : book t = book s := by
  obtain rfl := Host.Outcome.next.inj h
  split
  · dsimp only
    rw [book_requestCopy]
    exact book_abandonClearing s z
  · rfl

theorem holdupEnd_keepsLaws : KeepsLaws s (holdupEnd s) := by
  have hlost := book_mainLost s
  unfold holdupEnd
  split
  next hv =>
    have hb : book ((mainLost s).onPc (fun p => { p with supply := .start })) = .lost { s.power with supply := .start } := by
      change { book (mainLost s) with power := { (book (mainLost s)).power with supply := .start } } = _
      rw [hlost]
      rfl
    exact keepsLaws_of_lost hb (by simp) id fun _ _ => hv
  next =>
    obtain ⟨q, hb, hq, hlatch⟩ := book_enterUnpowered _ hlost
    refine keepsLaws_of_lost hb ?_ hlatch fun _ hne => ?_
    · obtain hq | hq := hq <;> simp [hq]
    · exact absurd hq (not_or.2 hne)

theorem exec_controlBlockWriteEnd_keepsLaws {t : State} (h : exec .controlBlockWriteEnd s = .next t) :
    KeepsLaws s t := by
  obtain rfl := Host.Outcome.next.inj h
  split
  next => exact .refl _
  next w _ =>
    refine (Stays.of_eq (book_copyWritten s w)).before ?_
    dsimp only
    split
    · split
      · exact (Stays.of_eq (book_onJs_same _ rfl)).keepsLaws
      · exact (coldStart_passes _).keepsLaws
    · split
      · exact holdupEnd_keepsLaws _
      · exact ((copyCompletes_passes _).stays.trans (.of_eq (book_nextCopy _))).keepsLaws

end

end Sys2Proof.Machine
end

section
/-! SUPPORT. Every command keeps the laws of the book, and the statements on the tags and on RUN. -/

namespace Sys2Proof.Machine

section

variable {s t : State}

/-! ## The commands, unit by unit -/

theorem exec_jsCommand_passes {c : Instr} (hc : c = .format ∨ c = .setPolicy ∨ c = .journalStatus ∨ c = .segmentInfo)
    (h : exec c s = .next t) : (book s).Passes 0 (book t) := by
  obtain rfl | rfl | rfl | rfl := hc <;> obtain rfl := Host.Outcome.next.inj h
  · exact withJs_passes s _ fun _ => format_passes s
  · exact withJs_passes s _ fun _ => setPolicy_passes s
  · exact withJs_passes s _ fun _ => journalStatus_passes s
  · exact withJs_passes s _ fun _ => segmentInfo_passes s

theorem exec_cuCommand_passes {c : Instr} (hc : c ∈ cuCommands) (h : exec c s = .next t) :
    (book s).Passes 0 (book t) := by
  simp only [cuCommands, List.mem_cons, List.not_mem_nil, or_false] at hc
  obtain rfl | rfl | rfl | rfl | rfl | rfl | rfl | rfl := hc <;> obtain rfl := Host.Outcome.next.inj h
  · exact withCu_passes s _ fun _ => openCursor_passes
  · refine withCu_passes s _ fun e hs => ?_
    split
    · exact .refl _
    · exact withCursor_passes hs _ fun c => seek_passes hs c
  · refine withCu_passes s _ fun e hs => ?_
    split
    · exact withCursor_passes hs _ fun c => seekTime_passes hs c
    · exact .refl _
  · exact withCu_passes s _ fun _ hs => withCursor_passes hs _ fun c => beginScan_passes hs _ c
  · exact withCu_passes s _ fun _ hs => withCursor_passes hs _ fun c => beginScan_passes hs _ c
  · exact withCu_passes s _ fun _ hs => withCursor_passes hs _ fun c => cancel_passes hs c
  · exact withCu_passes s _ fun _ hs => withCursor_passes hs _ fun c => close_passes hs c
  · exact withCu_passes s _ fun _ hs => withCursor_passes hs _ fun c => cursorStatus_passes hs c

theorem exec_scan_passes {c : Instr} (hc : c = .scanStep ∨ c = .tailTest) (h : exec c s = .next t) :
    (book s).Passes 0 (book t) := by
  obtain rfl | rfl := hc <;> obtain rfl := Host.Outcome.next.inj h <;> refine withScan_passes s fun e sc hs => ?_ <;> split
  · exact stepBackward_passes hs sc
  · exact stepForward_passes hs sc
  · exact .refl _
  · exact tailTest_passes hs sc

theorem exec_tbCommand_passes {c : Instr} (hc : c = .readTime ∨ c = .setTime ∨ c = .adjustTime)
    (h : exec c s = .next t) : (book s).Passes 0 (book t) := by
  obtain rfl | rfl | rfl := hc <;> obtain rfl := Host.Outcome.next.inj h
  · exact withTb_passes s _ fun _ => readTime_passes s
  · exact withTb_passes s _ fun _ => setTime_passes s
  · exact withTb_passes s _ fun _ => adjustTime_passes s

theorem exec_wuCommand_passes {c : Instr} (hc : c = .watchSet ∨ c = .watchRead ∨ c = .watchOff)
    (h : exec c s = .next t) : (book s).Passes 0 (book t) := by
  obtain rfl | rfl | rfl := hc <;> obtain rfl := Host.Outcome.next.inj h
  · exact withWu_passes s _ fun _ => watchSet_passes s
  · exact withWu_passes s _ fun _ => watchRead_passes s
  · exact withWu_passes s _ fun _ => watchOff_passes s

theorem exec_cpCommand_passes {c : Instr} (hc : c = .captureSet ∨ c = .nodeSet ∨ c = .nodeRead)
    (h : exec c s = .next t) : (book s).Passes 0 (book t) := by
  obtain rfl | rfl | rfl := hc <;> obtain rfl := Host.Outcome.next.inj h
  · exact withCp_passes s _ fun _ => captureSet_passes s
  · exact withCp_passes s _ fun _ => nodeSet_passes s
  · exact withCp_passes s _ fun _ => nodeRead_passes s

/-- The happenings of the TB, the WU and the JS but for their commands. -/
theorem exec_tick_passes {c : Instr} (hc : c = .secondBoundary ∨ c = .decisionPoint ∨ c = .boundaryEvent ∨
    c = .wuCommitNotice ∨ c = .holdFloorReport) (h : exec c s = .next t) : (book s).Passes 0 (book t) := by
  obtain rfl | rfl | rfl | rfl | rfl := hc <;> obtain rfl := Host.Outcome.next.inj h <;> split
  · exact oscillatorTick_passes s
  · exact .refl _
  · exact oscillatorTick_passes s
  · exact .refl _
  · exact .refl _
  · exact .of_eq ((book_watchBoundary _).trans (book_onWu_same s rfl))
  · exact .refl _
  · exact .of_eq ((book_watchCommit _ _).trans (book_onWu_same s rfl))
  · exact .refl _
  · exact .of_eq ((book_takeFloor _ _).trans (book_onJs_same s rfl))

/-- The happenings of the CP but for its commands and the AU's refusal. -/
theorem book_exec_cp {c : Instr} (hc : (∃ b g, c = .characterReceived b g) ∨ c = .gapTimeout ∨ c = .idleTimeElapsed ∨
    (∃ i, c = .acknowledgeWindowEnd i) ∨ c = .ackFrameStart ∨ c = .ackFrameEnd ∨ c = .cpCommitNotice)
    (h : exec c s = .next t) : book t = book s := by
  obtain ⟨b, g, rfl⟩ | rfl | rfl | ⟨i, rfl⟩ | rfl | rfl | rfl := hc <;> obtain rfl := Host.Outcome.next.inj h
  · exact book_receive s b g
  · split
    · exact book_framingFailure s
    · rfl
  · split
    · exact book_onCp_same s (by simp)
    · rfl
  · split
    · split
      · exact book_onCp_same s (by simp)
      · rfl
    · rfl
  · (repeat' split)
    · exact book_onCp_same s rfl
    all_goals rfl
  · split
    · split
      · exact (book_afterFrame _).trans (book_onCp_same s (by simp))
      · rfl
    · rfl
  · split
    · rfl
    · dsimp only
      split
      · exact book_onCp_same s rfl
      · exact (book_onCp_same _ (by simp)).trans (book_onCp_same s rfl)

/-- The transactions that only choose a port. -/
theorem book_exec_bus {c : Instr} (hc : c = .statusByte ∨ c = .rsp ∨ (∃ n o, c = .win n o) ∨ c = .sts ∨
    ∃ p, c = .unknownPort p) (h : exec c s = .next t) : book t = book s := by
  obtain rfl | rfl | ⟨n, o, rfl⟩ | rfl | ⟨p, rfl⟩ := hc <;> obtain rfl := Host.Outcome.next.inj h
  · exact book_onBus s (book_closeTx s)
  · exact book_onBus s (book_openPort s _)
  · exact book_onBus s (book_openPort s _)
  · exact book_onBus s (book_openPort s _)
  · split
    · rfl
    · exact book_onBus s (book_openPort s _)

theorem exec_keepsLaws {c : Instr} (h : exec c s = .next t) : KeepsLaws s t := by
  cases c with
  | format | setPolicy | journalStatus | segmentInfo => exact (exec_jsCommand_passes (by simp) h).keepsLaws
  | openCursor | seek | seekTime | fetch | count | cancel | close | cursorStatus =>
    exact (exec_cuCommand_passes (by simp [cuCommands]) h).keepsLaws
  | scanStep | tailTest => exact (exec_scan_passes (by simp) h).keepsLaws
  | readTime | setTime | adjustTime => exact (exec_tbCommand_passes (by simp) h).keepsLaws
  | watchSet | watchRead | watchOff => exact (exec_wuCommand_passes (by simp) h).keepsLaws
  | captureSet | nodeSet | nodeRead => exact (exec_cpCommand_passes (by simp) h).keepsLaws
  | secondBoundary | decisionPoint | boundaryEvent | wuCommitNotice | holdFloorReport =>
    exact (exec_tick_passes (by simp) h).keepsLaws
  | characterReceived | gapTimeout | idleTimeElapsed | acknowledgeWindowEnd | ackFrameStart | ackFrameEnd
  | cpCommitNotice => exact (Stays.of_eq (book_exec_cp (by simp) h)).keepsLaws
  | statusByte | rsp | win | sts | unknownPort => exact (Stays.of_eq (book_exec_bus (by simp) h)).keepsLaws
  | append => exact (exec_append_passes s h).keepsLaws
  | dispatch => exact (exec_dispatch_passes s h).keepsLaws
  | cuCommitNotice => exact (exec_cuCommitNotice_passes s h).keepsLaws
  | reclaimNotice => exact (exec_reclaimNotice_passes s h).keepsLaws
  | followTimeout => exact (exec_followTimeout_passes s h).keepsLaws
  | auStopped => exact (exec_auStopped_passes s h).keepsLaws
  | clearingEnd => exact (Stays.of_eq (book_exec_clearingEnd s h)).keepsLaws
  | auEnded => exact (Stays.of_eq (book_exec_auEnded s h)).keepsLaws
  | recoveryScanEnd =>
    obtain rfl := Host.Outcome.next.inj h
    split
    · exact (recover_passes s).keepsLaws
    · exact .refl _
  | cmd bytes =>
    obtain rfl := Host.Outcome.next.inj h
    exact (finish_stays s .cmd bytes fun u => cmd_stays u bytes).keepsLaws
  | ack bytes =>
    obtain rfl := Host.Outcome.next.inj h
    exact (finish_stays s .ack bytes fun u => .of_eq (book_ack u bytes)).keepsLaws
  | mask bytes =>
    obtain rfl := Host.Outcome.next.inj h
    exact (finish_stays s .mask bytes fun u => .of_eq (book_setMask u bytes)).keepsLaws
  | rspPop => exact (exec_rspPop_stays s h).keepsLaws
  | winEnd =>
    obtain rfl := Host.Outcome.next.inj h
    exact (rise_stays s id (.of_eq rfl)).keepsLaws
  | arbiterChoice =>
    obtain rfl := Host.Outcome.next.inj h
    exact arbiterChoice_keepsLaws s
  | nextSegmentRequest => exact exec_nextSegmentRequest_keepsLaws s h
  | writeStepEnd => exact exec_writeStepEnd_keepsLaws s h
  | refusalNotice => exact exec_refusalNotice_keepsLaws s h
  | controlBlockWriteEnd => exact exec_controlBlockWriteEnd_keepsLaws s h
  | holdup => exact exec_holdup_keepsLaws s h
  | resetAssert => exact exec_resetAssert_keepsLaws s h
  | resetRelease => exact exec_resetRelease_keepsLaws s h
  | vmainLost => exact exec_vmainLost_keepsLaws s h
  | vmainRise => exact exec_vmainRise_keepsLaws s h
  | vbatFall => exact exec_vbatFall_keepsLaws s h
  | vbatRise => exact exec_vbatRise_keepsLaws s h
  | retentionLatchExamine => exact exec_retentionLatchExamine_keepsLaws s h

/-- So does a step: a command of the queue, or an oscillator tick. -/
theorem step_keepsLaws (h : step s = .next t) : KeepsLaws s t := by
  obtain ⟨hfront, htick⟩ := stepRunsFrontCommand
  cases hpending : s.pending with
  | nil =>
    obtain rfl := Host.Outcome.next.inj ((htick s hpending).symm.trans h)
    exact (oscillatorTick_passes s).keepsLaws
  | cons c rest =>
    have hpopped : Stays s { s with pending := rest } := .of_eq rfl
    exact hpopped.before (exec_keepsLaws ((hfront c s rest hpending).symm.trans h))

end

/-! ## The statements -/

/-- Settles O7: the tags form a book, and every step passes commands on in it, brings a new tag, or leaves none. -/
theorem tagsStayUnique : Obligations.TagsStayUnique := by
  unfold Obligations.TagsStayUnique
  intro s t hon _ hout htags h
  exact tagLaw_of_lawful ((step_keepsLaws h).law hon (lawful_of_laws hout htags))

/-- Settles O8: the supply and the latch are in the book, and the end of RECOVERED's or COLD_START's append alone enters
RUN. -/
theorem runIsOnlineAndEntered : Obligations.RunIsOnlineAndEntered := by
  unfold Obligations.RunIsOnlineAndEntered
  exact ⟨fun s t hon h => (step_keepsLaws h).online hon, fun s t hs h => (step_keepsLaws h).enters hs,
    fun s t hl h => (step_keepsLaws h).clears hl⟩

end Sys2Proof.Machine
end

section
/-! SUPPORT. The flags of the HP, bit by bit, and what a transaction's rows do to the state (R157 to R160, R169 to
R175). -/

namespace Sys2Proof.Machine

/-! ## Bits -/

theorem testBit_flagBits (l : List Bool) (i : Nat) : (flagBits l).testBit i = l.getD i false := by
  induction l generalizing i with
  | nil => simp [flagBits]
  | cons b l ih =>
    have hcons : flagBits (b :: l) = b.toNat + 2 * flagBits l := rfl
    rw [hcons]
    cases i with
    | zero => cases b <;> simp [Nat.testBit_zero]
    | succ i =>
      rw [Nat.testBit_add_one, Nat.add_mul_div_left _ _ two_pos, Nat.div_eq_of_lt b.toNat_lt, zero_add, ih]
      rfl

theorem getLsbD_flagBits (l : List Bool) {i : Nat} (h : i < 8) : (byte (flagBits l)).getLsbD i = l.getD i false := by
  rw [byte, BitVec.getLsbD_ofNat, testBit_flagBits]
  simp [h]

/-- The members of the flags that ACK can clear are 1 to 7 (R173). -/
theorem getLsbD_fe {i : Nat} (h : i < 8) : (0xFE : BitVec 8).getLsbD i = decide (1 ≤ i) := by
  interval_cases i <;> rfl

namespace Hp

variable (h : Hp)

/-! ## The flags and INT# (R169, R173, R174) -/

/-- RSP is the state of the response queue (R169). -/
theorem flags_rsp : h.flags.getLsbD 0 = !h.responses.isEmpty := by
  cases hr : h.responses <;> simp [flags, hr]

theorem intAsserted_iff_bits :
    h.intAsserted = true ↔ ∃ i, h.flags.getLsbD i = true ∧ h.mask.getLsbD i = true := by
  rw [intAsserted, bne_iff_ne]
  exact and_ne_zero_iff h.flags h.mask

theorem intAsserted_iff :
    h.intAsserted = true ↔ ∃ i, i < 8 ∧ h.flags.getLsbD i = true ∧ h.mask.getLsbD i = true := by
  rw [intAsserted_iff_bits]
  exact exists_congr fun i => ⟨fun hbits => ⟨BitVec.lt_of_getLsbD hbits.1, hbits⟩, And.right⟩

/-- An ACK that is taken clears the members 1 to 7 that its second byte names (R173, R175). -/
theorem ack_eq (bytes : List Byte) : h.ack bytes = { h with events := (h.ack bytes).events } := by
  unfold ack
  split <;> rfl

theorem ack_events (bytes : List Byte) (i : Nat) : (h.ack bytes).events.getLsbD i =
    (h.events.getLsbD i &&
      !(decide (2 ≤ bytes.length ∧ h.offline = false) && decide (1 ≤ i) && (bytes.getD 1 0).getLsbD i)) := by
  unfold ack
  by_cases htaken : 2 ≤ bytes.length ∧ h.offline = false
  · rw [if_pos (by simpa using htaken)]
    change (h.events &&& ~~~(bytes.getD 1 0 &&& 0xFE)).getLsbD i = _
    rw [BitVec.getLsbD_and, BitVec.getLsbD_not, BitVec.getLsbD_and, decide_eq_true htaken, Bool.true_and]
    by_cases hi : i < 8
    · rw [getLsbD_fe hi, decide_eq_true hi, Bool.true_and, Bool.and_comm (decide _)]
    · rw [BitVec.getLsbD_of_ge _ _ (Nat.not_lt.1 hi), Bool.false_and, Bool.false_and]
  · rw [if_neg (by simpa using htaken), decide_eq_false htaken, Bool.false_and, Bool.false_and, Bool.not_false,
      Bool.and_true]

theorem setMask_eq (bytes : List Byte) : h.setMask bytes =
    { h with mask := if 2 ≤ bytes.length ∧ h.offline = false then bytes.getD 1 0 else h.mask } := by
  unfold setMask
  by_cases htaken : 2 ≤ bytes.length ∧ h.offline = false
  · simp [htaken]
  · simp [htaken]

/-! ## Postings and pops (R167, R169, R176) -/

theorem post_of_online (r : Response) (ho : h.offline = false) :
    h.post r = { h with responses := h.responses ++ [r] } := by
  simp [post, ho]

theorem post_of_offline (r : Response) (ho : h.offline = true) : h.post r = h := by
  simp [post, ho]

end Hp

/-! ## The status byte (R158) -/

theorem statusByteOf_bit (s : State) {i : Nat} (hi : i < 8) : (statusByteOf s).getLsbD i =
    [false, false, s.js.journal == .ready, s.hp.lastAccepted, s.hp.intAsserted, !s.hp.responses.isEmpty,
      s.hp.outstanding == 8, s.hp.offline].getD i false := getLsbD_flagBits _ hi

/-! ## The rows of a transaction, while the HP serves them (R157 to R159) -/

section

variable {s : State} (h : s.pc.supply.powered = true)

include h

theorem onBus_of_powered (f : State → State) : onBus f s = f s := if_pos h

theorem rise_of_powered (f : Hp → Hp) : rise f s =
    { closeTx s with pc := { s.pc with csLow := false }, hp := f { s.hp with tx := none } } := by
  rw [rise, onBus_of_powered h]
  rfl

/-- The end of CMD, ACK or MASK: its effect meets the HP with the transaction ended. -/
theorem finish_of_powered {f : Hp → Hp} (p : Port) (bytes : List Byte)
    (hf : (takeBytes p bytes s).hp.riseEffect = f) : finish p bytes s =
      { closeTx s with pc := { s.pc with csLow := false }, hp := f { s.hp with tx := none } } := by
  rw [finish, onBus_of_powered h]
  dsimp only
  rw [hf, rise_of_powered (s := takeBytes p bytes s) h]
  rfl

theorem exec_statusByte_of_powered : exec .statusByte s = .next
    { closeTx s with
      pc := { s.pc with csLow := true }
      hp := { s.hp with tx := some { status := statusByteOf s, port := .statusOnly } } } := by
  change Host.Outcome.next (setCs true (onBus _ s)) = _
  rw [onBus_of_powered h]
  rfl

end

/-- A port is chosen by its byte, with the status byte that was taken at the fall of CS#. -/
theorem openPort_eq (s : State) (p : TxPort) : openPort p s =
    { closeTx s with
      pc := { s.pc with csLow := true }, hp := { s.hp with tx := some { status := txStatus s, port := p } } } :=
  rfl

theorem txStatus_of_statusOnly {s : State} {x : Byte} (h : s.hp.tx = some { status := x, port := .statusOnly }) :
    txStatus s = x := by
  simp [txStatus, h]

/-! ## The statements on the flags -/

/-- Settles O9: member 0 of the flags is computed from the response queue. -/
theorem postingSetsRspFlag : Obligations.PostingSetsRspFlag := by
  unfold Obligations.PostingSetsRspFlag
  intro h
  have hflag (h : Hp) : h.flags.getLsbD 0 = true ↔ h.responses ≠ [] := by
    rw [Hp.flags_rsp]
    simp
  refine ⟨hflag h, fun r => ⟨fun hon => ?posted, h.post_of_offline r⟩, fun r rest hq => ?popped, fun bytes => ?acked,
    fun s hs hpow => ?shown, fun hmask hset => ?asserted⟩
  case posted =>
    have hpost := h.post_of_online r hon
    exact ⟨hpost, (hflag _).2 (by simp [hpost])⟩
  case popped =>
    rw [hflag]
    simp [Hp.pop, hq]
  case acked =>
    rw [h.ack_eq, Hp.flags_rsp, Hp.flags_rsp]
  case shown =>
    refine ⟨_, _, exec_statusByte_of_powered hpow, rfl, ?_⟩
    rw [statusByteOf_bit s (by decide), ← hs, Hp.flags_rsp]
    rfl
  case asserted => exact h.intAsserted_iff.2 ⟨0, by decide, hset, hmask⟩

/-- Settles O53: ACK and MASK at the rise of CS#, and the pins INT# and MISO from the flags, the enables and CS#. -/
theorem ackAndMaskRuleInt : Obligations.AckAndMaskRuleInt := by
  unfold Obligations.AckAndMaskRuleInt
  intro s bytes hpow
  refine ⟨⟨_, rfl, ?ack, ?events⟩, ?mask, s.hp.intAsserted_iff, ?int, ?miso⟩
  case ack =>
    rw [finish_of_powered hpow .ack bytes (f := Hp.ack bytes) rfl, Hp.ack_eq]
  case events =>
    rw [finish_of_powered hpow .ack bytes (f := Hp.ack bytes) rfl]
    exact Hp.ack_events _ bytes
  case mask =>
    refine congrArg Host.Outcome.next ?_
    rw [finish_of_powered hpow .mask bytes (f := Hp.setMask bytes) rfl, Hp.setMask_eq]
  case int =>
    rw [pins, if_pos hpow]
    cases s.hp.intAsserted <;> simp
  case miso =>
    rw [pins, if_pos hpow]
    cases s.pc.csLow <;> simp

end Sys2Proof.Machine
end

section
/-! SUPPORT. The transactions of the ports CMD, RSP, WIN and STS, and the bytes MISO returns (R159 to R172), and the
statements on them. -/

namespace Sys2Proof.Machine

/-! ## CMD (R161, R162) -/

theorem parseEntry_eq (bytes : List Byte) : parseEntry bytes =
    { opcode := bytes.getD 2 0, tag := bytes.getD 3 0, params := (bytes.drop 4).take 6, payload := bytes.drop 10 } := by
  simp [parseEntry, List.getD_eq_getElem?_getD, List.getElem?_drop, List.drop_drop]

theorem lengthOk_eq_false_iff (bytes : List Byte) : lengthOk bytes = false ↔
    bytes.length < 2 ∨ rd16 bytes 0 < 8 ∨ 248 < rd16 bytes 0 ∨ bytes.length ≠ rd16 bytes 0 + 2 := by
  rw [← Bool.not_eq_true, lengthOk]
  simp only [Bool.and_eq_true, decide_eq_true_eq, beq_iff_eq]
  omega

/-- The first of the four tests that fails (R162). -/
theorem Hp.judge_eq (bytes : List Byte) (h : Hp) : h.judge bytes =
    if bytes.length < 2 ∨ rd16 bytes 0 < 8 ∨ 248 < rd16 bytes 0 ∨ bytes.length ≠ rd16 bytes 0 + 2 then some .length
    else if h.offline = true then some .notReady
    else if 8 ≤ h.outstanding then some .full
    else if bytes.getD 3 0 = 255 ∨ bytes.getD 3 0 ∈ h.tags then some .tag
    else none := by
  unfold judge
  refine if_congr ?_ rfl ?_
  · rw [Bool.not_eq_true', lengthOk_eq_false_iff]
  · rw [parseEntry_eq]

theorem Hp.cmd_of_rejected {bytes : List Byte} {h : Hp} {r : Reject} (hr : h.judge bytes = some r) :
    h.cmd bytes = { h with reject := r, lastAccepted := false } := by
  rw [cmd, hr]

theorem Hp.cmd_of_accepted {bytes : List Byte} {h : Hp} (ha : h.judge bytes = none) : h.cmd bytes =
    { h with
      commands := h.commands ++ [parseEntry bytes], tags := h.tags ++ [(parseEntry bytes).tag]
      outstanding := h.outstanding + 1, lastAccepted := true } := by
  rw [cmd, ha]

theorem exec_cmd_of_powered {s : State} (h : s.pc.supply.powered = true) (bytes : List Byte) : exec (.cmd bytes) s = .next
    { closeTx s with pc := { s.pc with csLow := false }, hp := Hp.cmd bytes { s.hp with tx := none } } :=
  congrArg Host.Outcome.next (finish_of_powered h .cmd bytes rfl)

/-! ## RSP (R167) -/

/-- The front entry that was chosen is popped when 16 bytes are clocked (R167). -/
theorem Hp.popEffect_of_front {h : Hp} {x : Byte} {r : Response} {rest : List Response} (k : Nat)
    (htx : h.tx = some { status := x, port := .rsp (some r) }) (hq : h.responses = r :: rest) :
    h.popEffect k = if k < 16 then id else Hp.pop r := by
  rw [popEffect, chosen, htx, hq]
  by_cases hk : k < 16
  · simp [hk]
  · simp [hk, Nat.not_lt.1 hk]

theorem Hp.popEffect_of_none {h : Hp} {x : Byte} (k : Nat) (htx : h.tx = some { status := x, port := .rsp none }) :
    h.popEffect k = id := by
  rw [popEffect, chosen, htx]

/-- The bytes of a response entry after its 3 header bytes are its fields, then 00h, 13 of them (R168). -/
theorem Response.bytes_getD (r : Response) {k : Nat} (hk : k < 13) : r.bytes.getD (3 + k) 0 = r.fields.getD k 0 := by
  have hpad : (r.fields ++ List.replicate 13 (0 : Byte)).getD k 0 = r.fields.getD k 0 := by
    rcases Nat.lt_or_ge k r.fields.length with hin | hout
    · exact List.getD_append _ _ _ _ hin
    · rw [List.getD_append_right _ _ _ _ hout, List.getD_eq_default _ _ hout]
      exact List.getD_replicate _ (by omega)
  rw [← hpad, bytes, List.getD_eq_getElem?_getD, List.getElem?_take_of_lt (by omega), Nat.add_comm, List.append_assoc]
  rfl

theorem Response.bytes_getD_of_ge (r : Response) {k : Nat} (hk : 16 ≤ k) : r.bytes.getD k 0 = 0 :=
  List.getD_eq_default _ _ ((List.length_take_le _ _).trans hk)

theorem emptyEntryBytes_getD {k : Nat} (hk : 1 ≤ k) : emptyEntryBytes.getD k 0 = 0 := by
  obtain ⟨k, rfl⟩ := Nat.exists_eq_add_of_le' hk
  change (List.replicate 15 (0 : Byte)).getD k 0 = 0
  rcases Nat.lt_or_ge k 15 with hin | hout
  · exact List.getD_replicate _ hin
  · exact List.getD_eq_default _ _ (by simpa using hout)

/-- What MISO returns in a transaction of the port RSP (R167). -/
theorem misoByte_of_rsp {s : State} {x : Byte} {c : Option Response}
    (h : s.hp.tx = some { status := x, port := .rsp c }) (k : Nat) :
    misoByte s k = ((c.map Response.bytes).getD emptyEntryBytes).getD k 0 := by
  rw [misoByte, h]
  cases c <;> rfl

/-- Settles O51: CMD by the first test that fails, RSP by its front entry and RSP_POP by the entry that was chosen. -/
theorem hostTransactionsMoveTheQueues : Obligations.HostTransactionsMoveTheQueues := by
  unfold Obligations.HostTransactionsMoveTheQueues
  refine ⟨fun s bytes hpow => ?cmd, fun s hpow => ⟨fun x p htx hp => ?rsp, fun x k r rest htx hq => ?pop,
    fun x k htx => ?empty, fun x r htx => ?entry, fun x htx => ?emptyEntry⟩⟩
  case cmd =>
    rw [exec_cmd_of_powered hpow]
    have hjudge := Hp.judge_eq bytes { s.hp with tx := none }
    cases hfailed : Hp.judge bytes { s.hp with tx := none } with
    | some r =>
      rw [Hp.cmd_of_rejected hfailed]
      simp only [hjudge.symm.trans hfailed]
    | none =>
      rw [Hp.cmd_of_accepted hfailed, parseEntry_eq]
      simp only [hjudge.symm.trans hfailed]
  case rsp =>
    subst hp
    refine congrArg Host.Outcome.next ?_
    rw [onBus_of_powered hpow, openPort_eq, txStatus_of_statusOnly htx]
  case pop =>
    refine congrArg Host.Outcome.next ?_
    rw [rise_of_powered hpow, Hp.popEffect_of_front k htx hq]
    split
    · rfl
    · rw [Hp.pop, hq]
      rfl
  case empty =>
    refine congrArg Host.Outcome.next ?_
    rw [rise_of_powered hpow, Hp.popEffect_of_none k htx]
    rfl
  case entry =>
    refine ⟨misoByte_of_rsp htx 0, misoByte_of_rsp htx 1, (misoByte_of_rsp htx 2).trans ?_,
      fun k hk => (misoByte_of_rsp htx _).trans (r.bytes_getD hk),
      fun k hk => (misoByte_of_rsp htx k).trans (r.bytes_getD_of_ge hk)⟩
    rfl
  case emptyEntry =>
    exact ⟨misoByte_of_rsp htx 0, fun k hk => (misoByte_of_rsp htx k).trans (emptyEntryBytes_getD hk)⟩

/-! ## The port bytes and the snapshot (R159, R172) -/

theorem portOf_eq_none {p : Byte} (h : p ∉ ([0x10, 0x20, 0x30, 0x40, 0x50, 0x51] : List Byte)) : portOf p = none := by
  simp only [List.mem_cons, List.not_mem_nil, or_false, not_or] at h
  obtain ⟨hcmd, hrsp, hwin, hsts, hack, hmask⟩ := h
  rw [portOf, if_neg hcmd, if_neg hrsp, if_neg hwin, if_neg hsts, if_neg hack, if_neg hmask]

/-- The codes of the states that serve a snapshot (R172): START 1, COLD_INIT 2, RECOVER 3, RUN 4 and HOLDUP 5. -/
theorem Supply.code_of_powered (p : Supply) : p.powered = true → p.code = match p with
    | .start => 1
    | .coldInit => 2
    | .recover => 3
    | .run => 4
    | _ => 5 := by
  intro h
  cases p with
  | start | coldInit | recover | run | holdup => rfl
  | off | retain | reset => exact absurd h Bool.false_ne_true

/-- The cursor that a cursor number byte names while no WIN is refused (R170, R175). -/
theorem cursorOfByte_eq (c : Byte) : cursorOfByte c = if 4 ≤ c.toNat then none else some (Fin.ofNat 4 c.toNat) := by
  unfold cursorOfByte
  split
  · next hlt =>
    rw [if_neg (Nat.not_le.2 hlt)]
    exact congrArg some (Fin.ext (Nat.mod_eq_of_lt hlt).symm)
  · next hge => rw [if_pos (Nat.not_lt.1 hge)]

/-- Settles O52: each port byte's choice, the status byte and the snapshot taken once, and the bytes of the window. -/
theorem portsChooseAtTheirByte : Obligations.PortsChooseAtTheirByte := by
  unfold Obligations.PortsChooseAtTheirByte
  refine ⟨⟨rfl, rfl, rfl, rfl, rfl, rfl, fun p => portOf_eq_none⟩, fun s => ?status,
    fun s hpow => ?snapshot, fun s hpow =>
    ⟨?winEnd, exec_statusByte_of_powered hpow, fun x htx => ⟨?sts, fun c o => ?win, fun p hp => ?unknown⟩,
      fun x snap k htx => ?snapByte, fun x c o k htx => ?winByte, fun x o k htx => ?noWin⟩⟩
  case status =>
    have hbit {i : Nat} (hi : i < 8) := statusByteOf_bit s hi
    refine ⟨hbit (by decide), ?_, ?_, ?_, hbit (by decide), ?_, hbit (by decide), hbit (by decide)⟩
    · rw [hbit (by decide)]
      exact beq_iff_eq
    · rw [hbit (by decide)]
      change (!s.hp.responses.isEmpty) = true ↔ _
      simp
    · rw [hbit (by decide)]
      exact s.hp.intAsserted_iff_bits
    · rw [hbit (by decide)]
      exact beq_iff_eq
  case snapshot =>
    dsimp only
    rw [snapshotOf, Supply.code_of_powered _ hpow, JournalState.code.eq_def, Reject.code.eq_def]
    cases s.au.nextSeq <;> rfl
  case winEnd =>
    refine congrArg Host.Outcome.next ?_
    rw [rise_of_powered hpow]
    rfl
  case sts =>
    refine congrArg Host.Outcome.next ?_
    rw [onBus_of_powered hpow, openPort_eq, txStatus_of_statusOnly htx]
  case win =>
    refine congrArg Host.Outcome.next ?_
    rw [onBus_of_powered hpow, openPort_eq, txStatus_of_statusOnly htx, cursorOfByte_eq, ← ite_or]
  case unknown =>
    refine congrArg Host.Outcome.next ?_
    rw [portOf_eq_none hp, if_neg (by decide), onBus_of_powered hpow, openPort_eq, txStatus_of_statusOnly htx]
    rfl
  case snapByte => rw [misoByte, htx]
  case winByte =>
    rw [misoByte, htx]
    dsimp only
    rw [if_neg (by omega), Nat.add_sub_cancel_left]
  case noWin => rw [misoByte, htx]

end Sys2Proof.Machine
end

section
/-! SUPPORT. The reset state (R160, R179, R180). -/

namespace Sys2Proof.Machine

/-- Settles O3: the reset state is closed, so each part of the statement is a small computation. -/
theorem resetIsStart : Obligations.ResetIsStart := by
  unfold Obligations.ResetIsStart Sound
  have hsupply : State.reset.pc.supply ≠ .run := by decide
  have hrecord (r : InProgress) : State.reset.au.record ≠ some r := Option.some_ne_none r ∘ Eq.symm
  refine ⟨rfl, rfl, rfl, rfl, rfl, rfl, rfl, rfl, rfl, by decide, rfl, rfl, rfl, ?time, ?host, ?lanes, ?online,
    ?outstanding, ?tags⟩
  case time => exact timeLaw_atStart _ _ (by decide) (by decide)
  case host => exact ⟨by decide, List.nodup_nil, List.not_mem_nil⟩
  case lanes => exact ⟨by decide, by decide⟩
  case online => exact ⟨by decide, fun _ => rfl⟩
  case outstanding =>
    exact ⟨fun h => absurd h hsupply, fun _ => ⟨rfl, rfl⟩, fun _ _ => by decide, fun r _ h => absurd h (hrecord r)⟩
  case tags => exact ⟨fun h => absurd h hsupply, fun r _ h => absurd h (hrecord r)⟩

end Sys2Proof.Machine
end

section
/-! SUPPORT. START's choice between recovery and cold initialisation, and what the end of the recovery scan rebuilds (R180, R188,
R191 to R194). -/

namespace Sys2Proof.Machine

section

variable {s : State}

/-! ## START (R180, R188, R196) -/

theorem beginCold_eq : beginCold s =
    { s with
      pc := { s.pc with supply := .coldInit }
      tb := Tb.atStart 0 0 false s.tb.beatPhase
      au := { s.au with nextSeq := .value 1 }
      cp := Cp.start
      js := { s.js with
        policy := .wrap, mark := 56, used := 0, head := 0, filling := 0, clearing := some 0
        index := Vector.replicate 64 (IndexEntry.empty .clearing) } } := rfl

theorem beginRecovery_of_some {i : CopyId} (h : chooseCopy s.copyA s.copyB = some i) :
    beginRecovery s = s.onPc (fun p => { p with supply := .recover, chosen := i, scanning := true }) := by
  rw [beginRecovery, h]

theorem beginRecovery_of_none (h : chooseCopy s.copyA s.copyB = none) :
    beginRecovery s = beginCold (s.onPc (fun p => { p with latch := true, reason := .controlLost })) := by
  rw [beginRecovery, h]

theorem exec_retentionLatchExamine_of_start (hs : s.pc.supply = .start) (hr : s.pc.resetLow = false)
    (hp : s.pc.pfiLow = false) :
    exec .retentionLatchExamine s = .next (if s.pc.latch = true then beginCold s else beginRecovery s) :=
  congrArg Host.Outcome.next (if_pos ⟨hs, hr, hp⟩)

/-! ## Recovery's rebuilding (R191 to R194) -/

/-- The state with these requests in the AU's system lane, which a control block write and the preparation neither read nor
write. -/
def State.setLane (l : List SysRequest) (s : State) : State := s.onAu (fun a => { a with systemLane := l })

theorem requestCopy_setLane (l : List SysRequest) : requestCopy (s.setLane l) = (requestCopy s).setLane l := by
  unfold requestCopy startCopy startCopyTo State.setLane
  rw [State.onAu_js]
  split <;> rfl

theorem reclaim_setLane (l : List SysRequest) : reclaim (s.setLane l) = (reclaim s).setLane l :=
  congrArg (startClearing s.js.head) (requestCopy_setLane (s := beforeCopy s) l)

theorem prepare_of_filling (s : State) (h : (s.js.index[s.js.next]).state = .filling) : prepare s = s := by
  unfold prepare; rw [h]

theorem prepare_setLane (l : List SysRequest) : prepare (s.setLane l) = (prepare s).setLane l := by
  have hreclaim := reclaim_setLane (s := s) l
  cases h : (s.js.index[s.js.next]).state with
  | free => rw [prepare_of_free (s.setLane l) h, prepare_of_free s h]; rfl
  | clearing =>
    rw [prepare_of_clearing_or_prepared (s.setLane l) (.inl h), prepare_of_clearing_or_prepared s (.inl h)]; rfl
  | prepared =>
    rw [prepare_of_clearing_or_prepared (s.setLane l) (.inr h), prepare_of_clearing_or_prepared s (.inr h)]; rfl
  | filling => rw [prepare_of_filling (s.setLane l) h, prepare_of_filling s h]
  | sealed =>
    cases hp : s.js.policy with
    | stop => rw [prepare_of_sealed_stop (s.setLane l) h hp, prepare_of_sealed_stop s h hp]; rfl
    | wrap =>
      cases hh : nextHeld s with
      | true => rw [prepare_of_sealed_held (s.setLane l) h hp hh, prepare_of_sealed_held s h hp hh]; rfl
      | false =>
        rw [prepare_of_sealed_unheld (s.setLane l) h hp hh, prepare_of_sealed_unheld s h hp hh, hreclaim]; rfl

theorem nextAfter_eq (top : Option Nat) (hint : Nat) : nextAfter top hint = match top with
    | some m => if m < 4294967295 ∧ hint ≠ 0 then .value (max (m + 1) hint) else .exhausted
    | none => if hint = 0 then .exhausted else .value hint := by
  cases top with
  | none => rfl
  | some m =>
    unfold nextAfter
    dsimp only
    by_cases h : m < 4294967295 ∧ hint ≠ 0
    · rw [if_pos h, if_neg (by omega)]
    · rw [if_neg h, if_pos (by omega)]

/-- What recovery has rebuilt, from the readings `r` and the copy `c`, when it comes to the control block write and the
preparation. -/
def rebuilt (r : Recovery) (c : ControlCopy) (s : State) : State :=
  { s with
    mem := s.mem.writeCells r.repairs, pc := { s.pc with scanning := false }
    js := recoveredJs r c s.pc.chosen
    au := { Au.start with nextSeq := nextAfter r.top c.hint, fillPoint := r.fillPoint }
    cp := recoveredCp c r.kept, cu := Cu.start, wu := Wu.start, hp := s.hp.clearFlags, tb := s.tb.mainCleared }

/-- With the copy asked for that an F opened without a record needs (R191). -/
def askedFor (how : Settle) (s : State) : State := if how = .openedEmpty then requestCopy s else s

theorem askedFor_eq (how : Settle) (s : State) : askedFor how s = { s with js := (askedFor how s).js } := by
  unfold askedFor
  split
  · exact (requestCopy_eq s).trans (by rw [← requestCopy_js])
  · rfl

theorem askedFor_setLane (how : Settle) (l : List SysRequest) : askedFor how (s.setLane l) = (askedFor how s).setLane l := by
  unfold askedFor
  split
  · exact requestCopy_setLane l
  · rfl

/-- The preparation writes the JS, and the CU when it reclaims a segment. -/
theorem prepare_eq (s : State) : prepare s = { s with js := (prepare s).js, cu := (prepare s).cu } := by
  have hframe := prepare_frame s
  generalize prepare s = t at hframe ⊢
  cases t
  simpa using hframe

theorem prepare_askedFor_eq (how : Settle) (s : State) : prepare (askedFor how s) =
    { s with js := (prepare (askedFor how s)).js, cu := (prepare (askedFor how s)).cu } := by
  refine (prepare_eq _).trans ?_
  generalize prepare (askedFor how s) = t
  rw [askedFor_eq]

theorem recoveredRequest_eq (r : Recovery) (i : CopyId) : recoveredRequest r i =
    { kind := .recovered
      payload := [2, byte (causeOf r.kept)] ++ (be16 r.voided ++ be16 r.bad ++ [byte (if i = .a then 0 else 1)]) } := by
  cases i <;> rfl

/-- The end of the scan: what is rebuilt is prepared, and RECOVERED goes into the empty lane. -/
theorem recover_eq : recover s =
    (prepare (askedFor (recoveryNow s).settle (rebuilt (recoveryNow s) (s.copy s.pc.chosen) s))).setLane
      [recoveredRequest (recoveryNow s) s.pc.chosen] := by
  unfold recover
  generalize recoveryNow s = r
  generalize ht : askedFor r.settle (rebuilt r (s.copy s.pc.chosen) s) = t
  have hpc : t.pc.chosen = s.pc.chosen := by rw [← ht, askedFor_eq]; rfl
  have hau : (prepare t).au = (rebuilt r (s.copy s.pc.chosen) s).au := by rw [← ht, prepare_askedFor_eq]
  have hrequest : requestSystem (recoveredRequest r t.pc.chosen) (prepare t) =
      (prepare t).setLane [recoveredRequest r s.pc.chosen] := by
    rw [requestSystem_of_room _ _ (by rw [hau]; rfl) (by rw [hau]; exact (by decide : 0 < 4)), hpc]
    unfold State.setLane State.onAu
    rw [hau]
    rfl
  rw [← hrequest, ← ht]
  rfl

theorem exec_recoveryScanEnd_of_scanning (hs : s.pc.supply = .recover) (hscan : s.pc.scanning = true) :
    exec .recoveryScanEnd s = .next (recover s) := congrArg Host.Outcome.next (if_pos ⟨hs, hscan⟩)

end

/-- Settles O57: START by the latch and the two copies' validity; the scan's end by `recover_eq`, whose state differs from the
one prepared in the system lane alone. -/
theorem startChoosesAndRecoveryRebuilds : Obligations.StartChoosesAndRecoveryRebuilds := by
  unfold Obligations.StartChoosesAndRecoveryRebuilds
  refine ⟨fun s hs hr hp => ?start, fun s hs hscan => ?scanEnd⟩
  case start =>
    have hexec := exec_retentionLatchExamine_of_start hs hr hp
    have hrecovers {i : CopyId} (hl : s.pc.latch = false) (hi : chooseCopy s.copyA s.copyB = some i) :
        exec .retentionLatchExamine s =
          .next (s.onPc (fun p => { p with supply := .recover, chosen := i, scanning := true })) := by
      rw [hexec, if_neg (by simp [hl]), beginRecovery_of_some hi]
    refine ⟨fun hl => ?_, fun hl ha hb => hrecovers hl ?_, fun hl ha hb => hrecovers hl ?_, fun hl ha hb => hrecovers hl ?_,
      fun hl ha hb => ?_⟩
    · rw [hexec, if_pos hl, beginCold_eq]
      exact ⟨_, rfl, ⟨rfl, hl, rfl, rfl, rfl, rfl, rfl⟩, rfl⟩
    · simp [chooseCopy, ha, hb]
    · simp [chooseCopy, ha, hb]
    · simp [chooseCopy, ha, hb]
    · rw [hexec, if_neg (by simp [hl]), beginRecovery_of_none (by simp [chooseCopy, ha, hb]), beginCold_eq]
      exact ⟨_, rfl, ⟨rfl, rfl, rfl, rfl, rfl, rfl, rfl⟩, rfl⟩
  case scanEnd =>
    rw [exec_recoveryScanEnd_of_scanning hs hscan, recover_eq, recoveryNow, State.copy_eq]
    intro c r watermark
    change ∃ t, Host.Outcome.next ((prepare (askedFor r.settle (rebuilt r c s))).setLane
      [recoveredRequest r s.pc.chosen]) = .next t ∧ _
    clear_value r c
    generalize hl : [recoveredRequest r s.pc.chosen] = l
    generalize hu : prepare (askedFor r.settle (rebuilt r c s)) = u
    have hframe : u = { rebuilt r c s with js := u.js, cu := u.cu } := by rw [← hu]; exact prepare_askedFor_eq _ _
    refine ⟨_, rfl, ?mem, ?pc, ?au, ?cp, ?wu, ?hp, ?tb, ?js⟩
    case js =>
      intro v asked
      have hv : v = (rebuilt r c s).setLane l := by
        change { u.setLane l with cu := Cu.start, js := recoveredJs r c s.pc.chosen } = _
        rw [hframe]
        rfl
      have hasked : prepare asked = u.setLane l := by
        change prepare (askedFor r.settle v) = _
        rw [hv, askedFor_setLane, prepare_setLane, hu]
      rw [hasked]
      exact ⟨rfl, rfl⟩
    all_goals rw [hframe]
    case au => rw [← hl, recoveredRequest_eq, State.setLane, rebuilt, nextAfter_eq]; rfl
    all_goals rfl

end Sys2Proof.Machine
end

section
/-! SUPPORT. The course of cold initialisation, from its clearings to the request of COLD_START (R196, R197). -/

namespace Sys2Proof.Machine

section

variable {s : State}

/-! ## The clearings and the open of segment 0 (R196 steps 3 to 5) -/

theorem exec_clearingEnd_of_cold {g : Seg} (hg : s.js.clearing = some g) (hc : s.pc.supply = .coldInit) :
    exec .clearingEnd s = .next (coldCleared g (prepared g s)) := by
  change execClearingEnd s = _
  unfold execClearingEnd
  rw [hg]
  exact congrArg Host.Outcome.next (if_pos hc)

theorem coldCleared_of_earlier {g : Seg} (hg : g.val < 63) :
    coldCleared g s = s.onJs (fun j => { j with clearing := some (g + 1) }) := if_pos hg

/-- With the mark above 1 the open of the first segment is not the one that reaches it (R25). -/
theorem openFirst_of_unused (hused : s.js.used = 0) (hmark : s.js.mark ≠ 1) : openFirst s =
    { s with
      js := { s.js with filling := 0, used := 1, index := s.js.index.set 0 (IndexEntry.empty .filling) }
      mem := s.mem.writeCells (cellsAt 0 (segHeader .filling 0)), au := { s.au with fillPoint := 1 } } := by
  have hhigh : s.js.used + 1 ≠ s.js.mark := by omega
  have hevents : s.hp.events ||| 0 = s.hp.events := BitVec.or_zero
  have hcells : headerCells 0 .filling 0 = cellsAt 0 (segHeader .filling 0) := by simp [headerCells_eq]
  rw [openFirst, openStates_eq, if_neg hhigh, hused, hevents, hcells]
  rfl

/-! ## The two copies and COLD_START (R197) -/

theorem exec_controlBlockWriteEnd_of_cold_a {w : CopyWrite} (hs : s.pc.supply = .coldInit)
    (hw : s.js.copyWrite = some w) (ht : w.target = .a) :
    exec .controlBlockWriteEnd s = .next (startCopyTo .b 1 (copyWritten w s)) := by
  have hcold : (copyWritten w s).pc.supply = .coldInit := by rw [copyWritten_eq]; exact hs
  change execControlBlockWriteEnd s = _
  unfold execControlBlockWriteEnd
  simp only [hw, hcold, ht, if_true]

theorem exec_controlBlockWriteEnd_of_cold_b {w : CopyWrite} (hs : s.pc.supply = .coldInit)
    (hw : s.js.copyWrite = some w) (ht : w.target = .b) :
    exec .controlBlockWriteEnd s = .next (coldStart (copyWritten w s)) := by
  have hcold : (copyWritten w s).pc.supply = .coldInit := by rw [copyWritten_eq]; exact hs
  change execControlBlockWriteEnd s = _
  unfold execControlBlockWriteEnd
  simp only [hw, hcold, ht, if_true]

/-- The end of a write stores a copy and changes none of the values that a write takes. -/
theorem copyValues_copyWritten (n : Nat) (w : CopyWrite) : copyValues n (copyWritten w s) = copyValues n s := by
  rw [copyWritten_eq]
  rfl

theorem coldStartRequest_eq (r : ColdReason) : SysRequest.make .coldStart r.code [] =
    { kind := .coldStart, payload := [1, match r with
        | .backupLost => 1
        | .controlLost => 2] } := by
  cases r <;> rfl

/-- The main domain takes its values after cold initialisation with the next segment PREPARED. -/
theorem coldStart_eq (h : (s.js.index[s.js.next]).state = .prepared) : coldStart s =
    { s with
      js := { s.js with blocked := .clear }
      au := { Au.start with
        nextSeq := .value 1, fillPoint := 1
        systemLane := [SysRequest.make .coldStart s.pc.reason.code []] }
      cp := Cp.start, cu := Cu.start, wu := Wu.start, hp := s.hp.clearFlags, tb := s.tb.mainCleared } := by
  let cleared : State := { s with
    au := { Au.start with nextSeq := .value 1, fillPoint := 1 }
    cp := Cp.start, cu := Cu.start, wu := Wu.start, hp := s.hp.clearFlags, tb := s.tb.mainCleared }
  have hprepare : prepare cleared = setBlocked .clear cleared := prepare_of_clearing_or_prepared cleared (.inr h)
  change requestSystem (SysRequest.make .coldStart (prepare cleared).pc.reason.code []) (prepare cleared) = _
  rw [hprepare]
  rfl

end

/-- Settles O60: a clearing's end by the segment it cleared, a control block write's end by the copy it wrote. -/
theorem coldInitialisationRuns : Obligations.ColdInitialisationRuns := by
  unfold Obligations.ColdInitialisationRuns
  refine fun s hs => ⟨fun g hg => ⟨fun hlt => ?earlier, fun hlast hused hmark => ?last⟩,
    fun w hw hfill => ⟨fun ht => ?copyA, fun ht hprep => ?copyB⟩⟩
  case earlier =>
    rw [exec_clearingEnd_of_cold hg hs, coldCleared_of_earlier hlt, prepared_eq]
    rfl
  case last =>
    subst hlast
    rw [exec_clearingEnd_of_cold hg hs, prepared_eq]
    change Host.Outcome.next (startCopyTo .a 1 (openFirst _)) = _
    rw [openFirst_of_unused (by exact hused) (by exact hmark)]
    rfl
  case copyA =>
    rw [exec_controlBlockWriteEnd_of_cold_a hs hw ht, startCopyTo, copyValues_copyWritten, copyValues, hfill,
      copyWritten_eq, ht]
    rfl
  case copyB =>
    have hnext : ((copyWritten w s).js.index[(copyWritten w s).js.next]).state = .prepared := by
      simpa [copyWritten_eq, Js.next, hfill] using hprep
    rw [exec_controlBlockWriteEnd_of_cold_b hs hw ht, coldStart_eq hnext, coldStartRequest_eq, copyWritten_eq, ht]
    rfl

end Sys2Proof.Machine
end

section
/-! SUPPORT. What recovery reads in the record memory: headers, places, the filling segment, and how far the used segments reach
back (R189 to R192). -/

namespace Sys2Proof.Machine

/-! ## Headers (R189) -/

/-- The first 8 bytes of a segment are a right header: one of the three stored states, and the CRC-8 over its body. -/
def headerRight (h : List Byte) : Prop :=
  (h.getD 0 0 = 0x00 ∨ h.getD 0 0 = 0x55 ∨ h.getD 0 0 = 0xAA) ∧ crc8 (h.take 5) = h.getD 5 0

theorem storedState_eq_none_iff (b : Byte) : storedState b = none ↔ ¬ (b = 0x00 ∨ b = 0x55 ∨ b = 0xAA) := by
  unfold storedState
  split_ifs <;> simp_all

theorem storedState_of_stored {b : Byte} (h : b = 0x00 ∨ b = 0x55 ∨ b = 0xAA) :
    storedState b = some (if b = 0x00 then .free else if b = 0x55 then .filling else .sealed) := by
  obtain rfl | rfl | rfl := h <;> rfl

section

variable {m : Memory} {g : Seg}

theorem unitAddr_zero (g : Seg) : unitAddr g 0 = g.val * 2048 := by simp [unitAddr]

theorem readHeader_of_right (h : headerRight (m.bytes (g.val * 2048) 8)) : readHeader m g =
    { reading := if (m.bytes (g.val * 2048) 8).getD 0 0 = 0x00 then .free
        else if (m.bytes (g.val * 2048) 8).getD 0 0 = 0x55 then .filling else .sealed
      first := rd32 (m.bytes (g.val * 2048) 8) 1, repair := [] } := by
  obtain ⟨hstate, hcrc⟩ := h
  unfold readHeader
  rw [unitAddr_zero]
  dsimp only
  rw [storedState_of_stored hstate]
  exact if_pos hcrc

theorem readHeader_of_bad (h : ¬ headerRight (m.bytes (g.val * 2048) 8)) : readHeader m g = readBadHeader m g := by
  unfold readHeader
  rw [unitAddr_zero]
  dsimp only
  split
  · next st hst =>
    have hstate := not_not.1 (mt (storedState_eq_none_iff _).2 (Option.ne_none_iff_exists'.2 ⟨st, hst⟩))
    exact if_neg fun hcrc => h ⟨hstate, hcrc⟩
  · rfl

/-- The place at unit `u` holds a record whose header check is valid. -/
theorem holdsRecord_and_headerCheckOk_iff {u : Nat} (hu : u ≤ 255) :
    (holdsRecord m g u && headerCheckOk m g u) = true ↔
      ((stored m g u).state = .opened ∨ (stored m g u).state = .committed ∨ (stored m g u).state = .void) ∧
        (crc16 (((m.bytes (unitAddr g u) 24).drop 1).take 19)).toNat = (stored m g u).headerCheck := by
  rw [Bool.and_eq_true, headerCheckOk, beq_iff_eq, holdsRecord, placeState_eq_stored m g hu]
  refine and_congr ?_ Iff.rfl
  cases (stored m g u).state <;> simp

end

/-! ## Places (R190) -/

theorem readable_iff (r : Stored) (u : Nat) : readable r u = true ↔
    r.state ≠ .other ∧ 3 ≤ r.size ∧ r.size ≤ 32 ∧ r.size = 3 + (r.len + 7) / 8 ∧ u + r.size ≤ 256 := by
  simp [readable, sizeUnits, and_assoc]

section

variable {m : Memory} {g : Seg} {u : Nat} (fuel : Nat)

theorem walkFrom_of_free (h : placeState m g u = .free) : walkFrom m g (fuel + 1) u = Walk.endAt u := if_pos h

theorem walkFrom_of_readable (h : placeState m g u ≠ .free) (hr : readable (stored m g u) u = true) :
    walkFrom m g (fuel + 1) u =
      Walk.visit m g u (stored m g u) (walkFrom m g fuel (u + (stored m g u).size)) :=
  (if_neg h).trans (if_pos hr)

theorem walkFrom_of_unreadable (h : placeState m g u ≠ .free) (hr : ¬ readable (stored m g u) u = true) :
    walkFrom m g (fuel + 1) u = Walk.unreadable g u (stored m g u).state :=
  (if_neg h).trans (if_neg hr)

variable {r : Stored} (w : Walk)

theorem Walk.visit_of_opened (h : r.state = .opened) : Walk.visit m g u r w =
    { w with repairs := voidCell g u :: w.repairs, seqs := r.seq :: w.seqs, voided := w.voided + 1 } := by
  rw [visit, h]

theorem Walk.visit_of_kept (h : r.state = .committed) (hok : headerCheckOk m g u = true ∧ payloadCheckOk m g u = true) :
    Walk.visit m g u r w = { w with kept := r :: w.kept, seqs := r.seq :: w.seqs } := by
  rw [visit, h]
  exact if_pos (Bool.and_eq_true_iff.2 hok)

theorem Walk.visit_of_bad (h : r.state = .committed)
    (hbad : ¬ (headerCheckOk m g u = true ∧ payloadCheckOk m g u = true)) : Walk.visit m g u r w =
      { w with
        repairs := voidCell g u :: w.repairs, seqs := r.seq :: w.seqs, voided := w.voided + 1, bad := w.bad + 1 } := by
  rw [visit, h]
  exact if_neg (mt Bool.and_eq_true_iff.1 hbad)

theorem Walk.visit_of_void (h : r.state = .void) : Walk.visit m g u r w = { w with seqs := r.seq :: w.seqs } := by
  rw [visit, h]

end

/-! ## The filling segment (R191) -/

/-- The greatest rank is Mathlib's `argmax`, which takes the first of equals too. -/
theorem greatest_eq_argmax (rank : Seg → Nat) (l : List Seg) : greatest rank l = l.argmax rank :=
  congrArg (fun step => l.foldl step none) (funext₂ fun o _ => by cases o <;> rfl)

theorem idxOf_le_of_pairwise {l : List Seg} (hl : l.Pairwise (· < ·)) {a b : Seg} (ha : a ∈ l) (hb : b ∈ l) (hab : a ≤ b) :
    l.idxOf a ≤ l.idxOf b := by
  by_contra hlt
  have hget := hl.sortedLT.getElem_lt_getElem_of_lt (hi := List.idxOf_lt_length_of_mem hb)
    (hj := List.idxOf_lt_length_of_mem ha) (Nat.not_le.1 hlt)
  simp only [List.getElem_idxOf] at hget
  exact absurd hab (not_le.2 hget)

/-- In a rising list the greatest is the segment before which all others stand by rank, or behind which they stand by
number at the same rank (log 13). -/
theorem greatest_eq_some {rank : Seg → Nat} {l : List Seg} (hl : l.Pairwise (· < ·)) {f : Seg} (hf : f ∈ l)
    (hmax : ∀ g ∈ l, g ≠ f → rank g < rank f ∨ (rank g = rank f ∧ f < g)) : greatest rank l = some f := by
  rw [greatest_eq_argmax, List.argmax_eq_some_iff]
  refine ⟨hf, fun g hg => ?_, fun g hg hle => idxOf_le_of_pairwise hl hf hg ?_⟩
  · by_cases hgf : g = f
    · rw [hgf]
    · have := hmax g hg hgf
      omega
  · by_cases hgf : g = f
    · rw [hgf]
    · obtain hlt | ⟨-, hafter⟩ := hmax g hg hgf
      · omega
      · exact hafter.le

/-- The segments whose header recovery reads as `st`, in rising order. -/
def segsReading (rd : Vector HeaderReading 64) (st : SegState) : List Seg := (fins 64).filter (fun g => (rd[g]).reading == st)

section

variable {rd : Vector HeaderReading 64} {hint : Seg} {st : SegState}

theorem mem_segsReading {g : Seg} : g ∈ segsReading rd st ↔ (rd[g]).reading = st := by
  simp [segsReading, fins]

theorem segsReading_pairwise : (segsReading rd st).Pairwise (· < ·) :=
  (List.sortedLT_finRange 64).pairwise.filter _

theorem segsReading_eq_nil_iff : segsReading rd st = [] ↔ ∀ g : Seg, (rd[g]).reading ≠ st := by
  simp only [List.eq_nil_iff_forall_not_mem, mem_segsReading, ne_eq]

/-- Among the segments that read `st`, `f` has the greatest rank, and of equals the lowest number. -/
def FirstGreatest (rd : Vector HeaderReading 64) (st : SegState) (rank : Seg → Nat) (f : Seg) : Prop :=
  (rd[f]).reading = st ∧
    ∀ g : Seg, (rd[g]).reading = st → g ≠ f → rank g < rank f ∨ (rank g = rank f ∧ f < g)

theorem greatest_segsReading {rank : Seg → Nat} {f : Seg} (h : FirstGreatest rd st rank f) :
    greatest rank (segsReading rd st) = some f :=
  greatest_eq_some segsReading_pairwise (mem_segsReading.2 h.1) fun g hg => h.2 g (mem_segsReading.1 hg)

theorem settleFilling_eq : settleFilling rd hint =
    match greatest (fun g => fillingRank rd[g]) (segsReading rd .filling) with
    | some f => (f, .found)
    | none =>
      if (rd[hint]).reading = .free ∧ ((rd[hint - 1]).reading = .sealed ∨ segsReading rd .sealed = []) then
        (hint, .openedEmpty)
      else match greatest (fun g => (rd[g]).first) (segsReading rd .sealed) with
        | some h => if (rd[h + 1]).reading = .free then (h + 1, .openedEmpty) else (h, .reopened)
        | none => (hint, .openedEmpty) := rfl

theorem settleFilling_of_filling {f : Seg} (h : FirstGreatest rd .filling (fun g => fillingRank rd[g]) f) :
    settleFilling rd hint = (f, .found) := by
  rw [settleFilling_eq, greatest_segsReading h]

/-- The copy's filling segment can be opened: it reads FREE, after a SEALED segment or in an empty journal (R191). -/
def Usable (rd : Vector HeaderReading 64) (hint : Seg) : Prop :=
  (rd[hint]).reading = .free ∧ ((rd[hint - 1]).reading = .sealed ∨ ∀ g : Seg, (rd[g]).reading ≠ .sealed)

theorem settleFilling_of_usable (hnone : ∀ g : Seg, (rd[g]).reading ≠ .filling) (h : Usable rd hint) :
    settleFilling rd hint = (hint, .openedEmpty) := by
  rw [settleFilling_eq, segsReading_eq_nil_iff.2 hnone]
  exact if_pos ⟨h.1, h.2.imp_right segsReading_eq_nil_iff.2⟩

theorem settleFilling_of_sealed (hnone : ∀ g : Seg, (rd[g]).reading ≠ .filling) (h : ¬ Usable rd hint) {f : Seg}
    (hf : FirstGreatest rd .sealed (fun g => (rd[g]).first) f) : settleFilling rd hint =
      if (rd[f + 1]).reading = .free then (f + 1, .openedEmpty) else (f, .reopened) := by
  rw [settleFilling_eq, segsReading_eq_nil_iff.2 hnone, greatest_segsReading hf]
  exact if_neg fun hu => h ⟨hu.1, hu.2.imp_right segsReading_eq_nil_iff.1⟩

end

/-! ## The used segments (R192) -/

/-- The segment `i` places before `g`. -/
def segBack (g : Seg) (i : Nat) : Seg := g - Fin.ofNat 64 i

/-- The number that the segment `i` places before `g` has to lie below: `next` at first, then that of the one after it. -/
def numberAfter (first : Seg → Nat) (g : Seg) (next : Option Nat) : Nat → Option Nat
  | 0 => next
  | i + 1 => some (first (segBack g i))

/-- The segment `i` places before `g` joins those after it (R192). -/
def JoinsBack (isSealed : Seg → Bool) (first : Seg → Nat) (f g : Seg) (next : Option Nat) (i : Nat) : Prop :=
  segBack g i ≠ f ∧ isSealed (segBack g i) = true ∧
    belowNext (first (segBack g i)) (numberAfter first g next i) = true

section

variable {isSealed : Seg → Bool} {first : Seg → Nat} {f : Seg}

theorem segBack_zero (g : Seg) : segBack g 0 = g := by simp [segBack]

theorem segBack_succ (g : Seg) (i : Nat) : segBack (g - 1) i = segBack g (i + 1) := by
  have hofNat : Fin.ofNat 64 (i + 1) = Fin.ofNat 64 i + 1 := by
    ext
    simp [Fin.val_add]
  rw [segBack, segBack, hofNat, sub_sub, add_comm 1]

theorem joinsBack_succ (g : Seg) (next : Option Nat) (i : Nat) :
    JoinsBack isSealed first f (g - 1) (some (first g)) i ↔ JoinsBack isSealed first f g next (i + 1) := by
  have hnumber : numberAfter first (g - 1) (some (first g)) i = numberAfter first g next (i + 1) := by
    cases i with
    | zero => rw [numberAfter, numberAfter, segBack_zero]
    | succ i => rw [numberAfter, numberAfter, segBack_succ]
  rw [JoinsBack, JoinsBack, segBack_succ, hnumber]

theorem joined_of_joins {g : Seg} {next : Option Nat} (fuel : Nat) (h : JoinsBack isSealed first f g next 0) :
    joined isSealed first f (fuel + 1) g next = joined isSealed first f fuel (g - 1) (some (first g)) + 1 := by
  rw [JoinsBack, segBack_zero] at h
  exact if_pos h

theorem joined_of_not_joins {g : Seg} {next : Option Nat} (fuel : Nat) (h : ¬ JoinsBack isSealed first f g next 0) :
    joined isSealed first f (fuel + 1) g next = 0 := by
  rw [JoinsBack, segBack_zero] at h
  exact if_neg h

/-- The count is that of the segments going back that join, up to the first that does not. -/
theorem joined_spec (fuel : Nat) (g : Seg) (next : Option Nat) :
    joined isSealed first f fuel g next ≤ fuel ∧
      (∀ i < joined isSealed first f fuel g next, JoinsBack isSealed first f g next i) ∧
      (joined isSealed first f fuel g next < fuel →
        ¬ JoinsBack isSealed first f g next (joined isSealed first f fuel g next)) := by
  induction fuel generalizing g next with
  | zero => exact ⟨le_rfl, fun i hi => absurd hi (Nat.not_lt_zero i), fun h => absurd h (Nat.lt_irrefl 0)⟩
  | succ fuel ih =>
    by_cases hjoins : JoinsBack isSealed first f g next 0
    · obtain ⟨hle, hall, hstop⟩ := ih (g - 1) (some (first g))
      rw [joined_of_joins fuel hjoins]
      refine ⟨Nat.succ_le_succ hle, fun i hi => ?_, fun hlt => ?_⟩
      · cases i with
        | zero => exact hjoins
        | succ i => exact (joinsBack_succ g next i).1 (hall i (Nat.lt_of_succ_lt_succ hi))
      · exact mt (joinsBack_succ g next _).2 (hstop (Nat.lt_of_succ_lt_succ hlt))
    · rw [joined_of_not_joins fuel hjoins]
      exact ⟨Nat.zero_le _, fun i hi => absurd hi (Nat.not_lt_zero i), fun _ => hjoins⟩

end

/-- Going back from F the first 63 segments are the others. -/
theorem segBack_ne {f : Seg} {i : Nat} (hi : i < 63) : segBack (f - 1) i ≠ f := by
  rw [segBack_succ, segBack, ne_eq, sub_eq_self, Fin.ext_iff]
  change ¬ (i + 1) % 64 = 0
  omega

theorem belowNext_iff (first : Nat) (next : Option Nat) : belowNext first next = true ↔ ∀ n, next = some n → first < n := by
  cases next <;> simp [belowNext]

theorem numberAfter_eq (first : Seg → Nat) (g : Seg) (next : Option Nat) (i : Nat) :
    numberAfter first g next i = if i = 0 then next else some (first (segBack g (i - 1))) := by
  cases i <;> rfl

theorem joinsBack_sealedAfter_iff {rd : Vector HeaderReading 64} {f : Seg} {next : Option Nat} {i : Nat} (hi : i < 63) :
    JoinsBack (sealedAfter rd f) (fun g => (rd[g]).first) f (f - 1) next i ↔
      (rd[segBack (f - 1) i]).reading ≠ .free ∧
        ∀ n, (if i = 0 then next else some (rd[segBack (f - 1) (i - 1)]).first) = some n →
          (rd[segBack (f - 1) i]).first < n := by
  have hne := segBack_ne (f := f) hi
  simp [JoinsBack, numberAfter_eq, belowNext_iff, sealedAfter, hne]

/-- Settles O58: the header by whether it is right, the walk by the place it comes to, F by the segments that read FILLING or
SEALED, and the used segments by `joined_spec`. -/
theorem recoveryReadsTheJournal : Obligations.RecoveryReadsTheJournal := by
  unfold Obligations.RecoveryReadsTheJournal
  refine ⟨fun m g => ?headers, fun m g fuel u => ?places, fun rd hint => ?filling, fun rd f first => ?used⟩
  case headers =>
    intro h right r record
    have hrecord : (holdsRecord m g 1 && headerCheckOk m g 1) = true ↔ record :=
      holdsRecord_and_headerCheckOk_iff (by decide)
    refine ⟨readHeader_of_right, fun hbad hrec => ?_, fun hbad hrec => ?_⟩
    · rw [readHeader_of_bad hbad, readBadHeader, if_pos (hrecord.2 hrec), headerCells_eq]
    · rw [readHeader_of_bad hbad, readBadHeader, if_neg (mt hrecord.1 hrec), headerCells_eq]
  case places =>
    intro r w rest fits good void
    have hreadable : readable r u = true ↔ fits := readable_iff r u
    have hvisit (hplace : placeState m g u ≠ .free) (hfits : fits) : w = Walk.visit m g u r rest :=
      walkFrom_of_readable fuel hplace (hreadable.2 hfits)
    refine ⟨walkFrom_of_free fuel, fun hplace hfits hst => ?_, fun hplace hfits hst hgood => ?_,
      fun hplace hfits hst hbad => ?_, fun hplace hfits hst => ?_, fun hplace hfits => ?_⟩
    · exact (hvisit hplace hfits).trans (Walk.visit_of_opened rest hst)
    · exact (hvisit hplace hfits).trans (Walk.visit_of_kept rest hst hgood)
    · exact (hvisit hplace hfits).trans (Walk.visit_of_bad rest hst hbad)
    · exact (hvisit hplace hfits).trans (Walk.visit_of_void rest hst)
    · exact walkFrom_of_unreadable fuel hplace (mt hreadable.1 hfits)
  case filling =>
    refine ⟨fun f hf hmax => settleFilling_of_filling ⟨hf, hmax⟩, fun hnone =>
      ⟨settleFilling_of_usable hnone, fun h husable hsealed hmax => ?_⟩⟩
    have hsettle := settleFilling_of_sealed hnone husable ⟨hsealed, hmax⟩
    exact ⟨fun hfree => hsettle.trans (if_pos hfree), fun hfree => hsettle.trans (if_neg hfree)⟩
  case used =>
    obtain ⟨hle, hall, hstop⟩ := joined_spec (isSealed := sealedAfter rd f) (first := fun g => (rd[g]).first) (f := f) 63
      (f - 1) first
    refine ⟨Nat.le_add_left 1 _, Nat.succ_le_succ hle, fun i hi => ?_, fun hlt => ?_⟩
    · have hi : i < joined (sealedAfter rd f) (fun g => (rd[g]).first) f 63 (f - 1) first := Nat.lt_of_succ_lt_succ hi
      exact (joinsBack_sealedAfter_iff (hi.trans_le hle)).1 (hall i hi)
    · have hlt := Nat.lt_of_succ_lt_succ hlt
      exact mt (joinsBack_sealedAfter_iff hlt).2 (hstop hlt)

end Sys2Proof.Machine
end

section
/-! SUPPORT. How recovery puts the journal together: the cause, the watermarks, and what it settles from its readings (R190 to
R194). -/

namespace Sys2Proof.Machine

/-! ## The cause and the watermarks (R193, R194) -/

theorem Stored.isPowerDown_iff (x : Stored) :
    x.isPowerDown = true ↔ x.source = 2 ∧ x.cls = 12 ∧ x.key.toNat / 256 = 3 := by
  simp [isPowerDown, and_assoc]

theorem causeOf_concat (l : List Stored) (x : Stored) :
    causeOf (l ++ [x]) = if x.source = 2 ∧ x.cls = 12 ∧ x.key.toNat / 256 = 3 then 1 else 2 := by
  rw [causeOf, List.getLast?_concat]
  exact if_congr x.isPowerDown_iff rfl rfl

/-- The CAPTURE records of node `n` among some. -/
def ownRecords (kept : List Stored) (n : Fin 8) : List Stored := kept.filter (fun r => r.source == 1 && r.node == n.val)

theorem mem_ownRecords {kept : List Stored} {n : Fin 8} {x : Stored} :
    x ∈ ownRecords kept n ↔ x ∈ kept ∧ x.source = 1 ∧ x.node = n.val := by
  simp [ownRecords]

theorem watermarkOf_eq_argmax (kept : List Stored) (n : Fin 8) :
    watermarkOf kept n = ((ownRecords kept n).argmax Stored.seq).map Stored.nodeSeq :=
  congrArg (fun step => (List.foldl step none (ownRecords kept n)).map Stored.nodeSeq)
    (funext₂ fun o _ => by cases o <;> rfl)

theorem watermarkOf_eq_none_iff (kept : List Stored) (n : Fin 8) :
    watermarkOf kept n = none ↔ ∀ x, ¬ (x ∈ kept ∧ x.source = 1 ∧ x.node = n.val) := by
  rw [watermarkOf_eq_argmax, Option.map_eq_none_iff, List.argmax_eq_none, List.eq_nil_iff_forall_not_mem]
  simp only [mem_ownRecords]

theorem watermarkOf_eq_some {kept : List Stored} {n : Fin 8} {q : Nat} (h : watermarkOf kept n = some q) :
    ∃ x ∈ ownRecords kept n, x.nodeSeq = q ∧ ∀ y ∈ ownRecords kept n, y.seq ≤ x.seq := by
  rw [watermarkOf_eq_argmax, Option.map_eq_some_iff] at h
  obtain ⟨x, hx, hq⟩ := h
  exact ⟨x, List.argmax_mem hx, hq, fun y hy => List.le_of_mem_argmax hy hx⟩

/-! ## The readings -/

theorem toList_eq_map_fins {α : Type} {n : Nat} (v : Vector α n) : v.toList = (fins n).map (fun i => v[i]) := by
  apply List.ext_getElem <;> simp [fins]

theorem eq_readHeaders {m : Memory} {rd : Vector HeaderReading 64} (h : ∀ g : Seg, rd[g] = readHeader m g) :
    rd = readHeaders m := by
  ext i hi
  simpa [readHeaders] using h ⟨i, hi⟩

theorem walks_getElem (m : Memory) (rd : Vector HeaderReading 64) (g : Seg) : (walks m rd)[g] = walkOf m g rd[g] := by
  simp [walks]

/-! ## The journal put together (R191 to R193) -/

theorem usedFrom_iff (head : Seg) (used : Nat) (g : Seg) : usedFrom head used g = true ↔ (g - head).val < used :=
  decide_eq_true_iff

theorem usedFrom_add_iff (head : Seg) (used : Nat) (k : Seg) : usedFrom head used (head + k) = true ↔ k.val < used := by
  rw [usedFrom_iff, add_sub_cancel_left]

theorem settleCells_eq (rd : Vector HeaderReading 64) (f : Seg) (how : Settle) : settleCells rd f how =
    ((fins 64).filter (fun g => (rd[g]).reading == .filling && g != f)).flatMap
        (fun g => cellsAt (g.val * 2048) (segHeader .sealed (rd[g]).first))
      ++ if how = .openedEmpty then cellsAt (f.val * 2048) (segHeader .filling 0)
        else if how = .reopened then cellsAt (f.val * 2048) (segHeader .filling (rd[f]).first) else [] := by
  cases how <;> simp [settleCells, headerCells_eq]

section

variable {rewrites : List Host.Cell} {rd : Vector HeaderReading 64} {ws : Vector Walk 64} {f : Seg} {how : Settle}
  {fill used : Nat} {head : Seg}

/-- What recovery is put together from stands in it. -/
theorem recoveryFrom_settled :
    let r := recoveryFrom rewrites rd ws f how fill used head
    r.filling = f ∧ r.settle = how ∧ r.fillPoint = fill ∧ r.used = used ∧ r.head = head :=
  ⟨rfl, rfl, rfl, rfl, rfl⟩

theorem recoveryFrom_index_unused {g : Seg} (hne : g ≠ f) (h : ¬ (g - head).val < used) :
    (recoveryFrom rewrites rd ws f how fill used head).index[g] = IndexEntry.empty .free := by
  simp [recoveryFrom, hne, mt (usedFrom_iff head used g).1 h]

variable {walk : Seg → Walk} (hwalk : ∀ g : Seg, ws[g] = walk g)

include hwalk

theorem recoveryFrom_index_filling {g : Seg} (hg : g = f) :
    (recoveryFrom rewrites rd ws f how fill used head).index[g] = summaryOf .filling (walk g).kept := by
  simp [recoveryFrom, hg, ← hwalk]

theorem recoveryFrom_index_used {g : Seg} (hne : g ≠ f) (h : (g - head).val < used) :
    (recoveryFrom rewrites rd ws f how fill used head).index[g] = summaryOf .sealed (walk g).kept := by
  simp [recoveryFrom, hne, (usedFrom_iff head used g).2 h, ← hwalk]

/-- The records kept lie in journal order, from the head on. -/
theorem recoveryFrom_kept :
    let r := recoveryFrom rewrites rd ws f how fill used head
    r.kept = (fins 64).flatMap (fun k => if k.val < used then (walk (r.head + k)).kept else []) := by
  simp only [recoveryFrom, List.flatMap_map, usedFrom_add_iff, hwalk]

theorem recoveryFrom_voided : (recoveryFrom rewrites rd ws f how fill used head).voided =
    ((fins 64).map (fun g => (walk g).voided)).sum := by
  simp only [recoveryFrom, toList_eq_map_fins, List.map_map, Function.comp_def, hwalk]

theorem recoveryFrom_bad : (recoveryFrom rewrites rd ws f how fill used head).bad =
    ((fins 64).map (fun g => (walk g).bad)).sum := by
  simp only [recoveryFrom, toList_eq_map_fins, List.map_map, Function.comp_def, hwalk]

theorem mem_walkSeqs {n : Nat} : n ∈ ws.toList.flatMap Walk.seqs ↔ ∃ g : Seg, n ∈ (walk g).seqs := by
  simp [toList_eq_map_fins, fins, ← hwalk]

theorem recoveryFrom_top_mem {n : Nat} (h : (recoveryFrom rewrites rd ws f how fill used head).top = some n) :
    ∃ g : Seg, n ∈ (walk g).seqs := (mem_walkSeqs hwalk).1 (List.max?_mem h)

theorem recoveryFrom_top_le {n : Nat} {g : Seg} (h : n ∈ (walk g).seqs) :
    ∃ k, (recoveryFrom rewrites rd ws f how fill used head).top = some k ∧ n ≤ k := by
  have hmem : n ∈ ws.toList.flatMap Walk.seqs := (mem_walkSeqs hwalk).2 ⟨g, h⟩
  obtain ⟨k, hk⟩ := Option.isSome_iff_exists.1 (List.isSome_max?_of_mem hmem)
  exact ⟨k, hk, (List.max?_eq_some_iff.1 hk).2 n hmem⟩

/-- The repairs in the order they are made (log 45). -/
theorem recoveryFrom_repairs : (recoveryFrom rewrites rd ws f how fill used head).repairs =
    rewrites ++ (fins 64).flatMap (fun g => (walk g).repairs)
      ++ ((fins 64).filter (fun g => (rd[g]).reading == .filling && g != f)).flatMap
        (fun g => cellsAt (g.val * 2048) (segHeader .sealed (rd[g]).first))
      ++ (if how = .openedEmpty then cellsAt (f.val * 2048) (segHeader .filling 0)
        else if how = .reopened then cellsAt (f.val * 2048) (segHeader .filling (rd[f]).first) else [])
      ++ cellsAt (f.val * 2048 + fill * 8) (List.replicate ((256 - fill) * 8) 0)
      ++ ((fins 64).filter (fun g => decide (g ≠ f ∧ (rd[g]).reading ≠ .free ∧ ¬ (g - head).val < used))).flatMap
        (fun g => cellsAt (g.val * 2048) (segHeader .free 0)) := by
  have hstranded : (fun g : Seg => sealedAfter rd f g && !(usedFrom head used g)) =
      fun g => decide (g ≠ f ∧ (rd[g]).reading ≠ .free ∧ ¬ (g - head).val < used) := by
    funext g
    rw [Bool.eq_iff_iff]
    simp [sealedAfter, usedFrom, and_assoc]
  rw [recoveryFrom, settleCells_eq, hstranded]
  simp only [headerCells_eq, List.append_assoc, hwalk]
  rfl

end

/-- Settles O59: the readings are recovery's own, and each part of what it settles is that of `recoveryFrom`. -/
theorem recoverySettlesTheJournal : Obligations.RecoverySettlesTheJournal := by
  unfold Obligations.RecoverySettlesTheJournal
  refine ⟨⟨rfl, causeOf_concat⟩, fun kept n => ⟨watermarkOf_eq_none_iff kept n, fun q hq => ?watermark⟩,
    fun m hint rd hrd => ?journal⟩
  case watermark =>
    obtain ⟨x, hx, hseq, hmax⟩ := watermarkOf_eq_some hq
    exact ⟨x, mem_ownRecords.1 hx, hseq, fun y hy => hmax y (mem_ownRecords.2 hy)⟩
  case journal =>
    obtain rfl := eq_readHeaders hrd
    intro rewrites walk f how fill used inUse summary r
    generalize hws : walks (m.writeCells rewrites) (readHeaders m) = ws
    have hwalk (g : Seg) : ws[g] = walk g := by rw [← hws]; exact walks_getElem _ _ g
    have hr : r = recoveryFrom rewrites (readHeaders m) ws f how fill used (f + 1 - Fin.ofNat 64 used) := by
      change recoverySettled rewrites (readHeaders m) (walks (m.writeCells rewrites) (readHeaders m)) f how = _
      rw [hws, recoverySettled, hwalk]
    clear_value r
    subst hr
    obtain ⟨hfilling, hsettle, hpoint, hused, hhead⟩ :=
      recoveryFrom_settled (rewrites := rewrites) (rd := readHeaders m) (ws := ws) (f := f) (how := how) (fill := fill)
        (used := used) (head := f + 1 - Fin.ofNat 64 used)
    exact ⟨hfilling, hsettle, hpoint, hused, hhead, recoveryFrom_voided hwalk, recoveryFrom_bad hwalk,
      fun g => ⟨recoveryFrom_index_filling hwalk, recoveryFrom_index_used hwalk, recoveryFrom_index_unused⟩,
      recoveryFrom_kept hwalk, fun n => recoveryFrom_top_mem hwalk, fun n g => recoveryFrom_top_le hwalk,
      recoveryFrom_repairs hwalk⟩

end Sys2Proof.Machine
end

section
/-! SUPPORT. Every command answers a next state and leaves the queue of commands alone: each operation's frame says
that it keeps the queue, and a command is made of such operations or changes nothing. -/

namespace Sys2Proof.Machine

/-- The queue of commands is the same in both states. -/
@[simp] def sameQueue (s t : State) : Prop := t.pending = s.pending

theorem pfiFalls_pending (made : Nat) (s : State) : (pfiFalls made s).pending = s.pending := by
  unfold pfiFalls
  split <;> simp [setPfi]

/-- Every command answers a next state with the queue it found. -/
theorem exec_pending (s : State) (c : Instr) : ∃ t, exec c s = .next t ∧ sameQueue s t := by
  have hs : sameQueue s s := rfl
  cases c with
  -- A host command, taken from its unit's slot.
  | format | setPolicy | journalStatus | segmentInfo => exact ⟨_, rfl, withJs_keeps (sameQueue s) hs _ fun e => by simp⟩
  | readTime | setTime | adjustTime => exact ⟨_, rfl, withTb_keeps (sameQueue s) hs _ fun e => by simp⟩
  | watchSet | watchRead | watchOff => exact ⟨_, rfl, withWu_keeps (sameQueue s) hs _ fun e => by simp⟩
  | captureSet | nodeSet | nodeRead => exact ⟨_, rfl, withCp_keeps (sameQueue s) hs _ fun e => by simp⟩
  | openCursor => exact ⟨_, rfl, withCu_keeps (sameQueue s) hs _ fun e => by simp⟩
  | fetch | count | cancel | close | cursorStatus =>
    exact ⟨_, rfl, withCu_keeps (sameQueue s) hs _ fun e => withCursor_keeps (sameQueue s) _ e (by simp) (by simp)⟩
  | seek =>
    refine ⟨_, rfl, withCu_keeps (sameQueue s) hs _ fun e => ?_⟩
    split
    · exact hs
    · exact withCursor_keeps (sameQueue s) _ e (by simp) (by simp)
  | seekTime =>
    refine ⟨_, rfl, withCu_keeps (sameQueue s) hs _ fun e => ?_⟩
    split
    · exact withCursor_keeps (sameQueue s) _ e (by simp) (by simp)
    · exact hs
  -- A reading of the command that scans.
  | scanStep | tailTest => exact ⟨_, rfl, withScan_keeps (sameQueue s) hs (by simp) fun e sc => by split <;> simp⟩
  -- A transaction of the Host Port.
  | statusByte | rsp | win | sts => exact ⟨_, rfl, onBus_keeps (sameQueue s) hs (by simp)⟩
  | unknownPort =>
    refine ⟨_, rfl, ?_⟩
    split
    · exact hs
    · exact onBus_keeps (sameQueue s) hs (by simp)
  -- An operation that always runs.
  | cmd | ack | mask | rspPop | winEnd | arbiterChoice | characterReceived | resetRelease | vbatRise =>
    exact ⟨_, rfl, by simp⟩
  | holdup change =>
    cases change with
    | falls made => exact ⟨_, rfl, pfiFalls_pending made s⟩
    | rises => exact ⟨_, rfl, rfl⟩
  -- What is due or waits is taken; when nothing is, the state stays as it is (log 12).
  | gapTimeout | idleTimeElapsed | secondBoundary | decisionPoint | recoveryScanEnd | auEnded | vmainLost | auStopped
  | acknowledgeWindowEnd | ackFrameStart | ackFrameEnd | refusalNotice | nextSegmentRequest | writeStepEnd | append =>
    refine ⟨_, rfl, ?_⟩
    split
    · dsimp only [sameQueue]
      (repeat' split) <;> simp
    · exact hs
  | boundaryEvent | vmainRise | holdFloorReport | wuCommitNotice =>
    refine ⟨_, rfl, ?_⟩
    split
    · exact hs
    · simp
  | cuCommitNotice | reclaimNotice | cpCommitNotice | clearingEnd | controlBlockWriteEnd | dispatch =>
    refine ⟨_, rfl, ?_⟩
    split
    · exact hs
    · dsimp only [sameQueue]
      (repeat' split) <;> simp
  | resetAssert | vbatFall | followTimeout | retentionLatchExamine =>
    refine ⟨_, rfl, ?_⟩
    dsimp only [sameQueue]
    (repeat' split) <;> simp

/-- Settles O2: every meaning answers `.next`, and none is made of operations that touch the queue. -/
theorem everyCommandRuns : Obligations.EveryCommandRuns := by
  unfold Obligations.EveryCommandRuns
  exact fun c s => exec_pending s c

end Sys2Proof.Machine
end
